-- ==== Sys2Proof/Word.lean ====
section
/-! DEFINITION. The data widths of the scanout engine (spec/00_scope.md R9): a pixel or buffer cell is 8 bits, a timing
field, counter or line-shape field is 16, a host address, band field, register or clock token is 32, a DMA count is 17. -/

namespace Sys2Proof

/-- A pixel, and a cell of a line buffer or of host memory (R9, R42). -/
abbrev Byte := BitVec 8

/-- A timing field, `hcount`, `current_line`, a line-shape field, a visible line index (R9). -/
abbrev Half := BitVec 16

/-- A DMA transfer count or beat index: a length plus one (R9, R37, R38). -/
abbrev Count := BitVec 17

/-- A register, a host memory address, a band field, the clock token (R9). -/
abbrev Word := BitVec 32

end Sys2Proof
end

