-- ==== Sys2Proof/Config.lean ====
section
/-! DEFINITION. What one instance of the block fixes: the four OPEN parameters of spec/00_scope.md R8 and
spec/92_eei_decisions.md P1 to P4. The spec says the model takes them as arguments, so they stand in `State` as plain data
that no step writes, and every statement holds for every value of them (notes/assumptions/12.md). No operation of the spec
leaves a value open, so this file holds no free value. -/

namespace Sys2Proof

/-- The parameters of R8. `4 * (bufWordsLess1 + 1)` is exactly a multiple of 4 from 4 to 65536. The spec says of `BASE` only
that it is 4-aligned; that it is an address of 32 bits, the width R9 gives host addresses, is the model's DESIGN CHOICE
(notes/assumptions/12.md). -/
structure Params where
  /-- `BUF_BYTES / 4 - 1` (P1). -/
  bufWordsLess1 : Fin 16384
  /-- `BASE / 4` (P2). DESIGN CHOICE: 30 bits, so that `BASE` is a 32-bit bus address (notes/assumptions/12.md). -/
  baseWord : BitVec 30
  /-- `SENTINEL` (P3): the word CFG_LOAD writes into every word of the working buffer. -/
  sentinel : Word
  /-- The predicate `MAPPED` (P4) as host memory regions, each a first byte and a size in bytes: `MAPPED(a)` holds when the
  4 bytes from `a` lie in one region (Machine/Memory.lean `isMapped`). -/
  mapped : List (Nat × Nat)
deriving DecidableEq, Repr

/-- `BUF_BYTES`: the capacity in bytes of each line buffer (R8). -/
def Params.bufBytes (p : Params) : Nat := 4 * (p.bufWordsLess1.val + 1)

/-- `BASE`: the bus address of register offset 0 (R8). -/
def Params.base (p : Params) : Nat := 4 * p.baseWord.toNat

/-- DESIGN CHOICE (notes/assumptions/12.md): the parameter values of `State.reset`, which are the example values of
spec/95_test_vectors.md section 0.1 with `BASE` 0. No statement rests on them. -/
def Params.ofTestVectors : Params where
  bufWordsLess1 := 3
  baseWord := 0
  sentinel := 0xA5A5A5A5#32
  mapped := [(0x20000000, 0x1000)]

end Sys2Proof
end

