-- ==== Sys2Proof/Syntax.lean ====
section
/-! DEFINITION. The operations of the block: one constructor for each row of spec/opcode_table.json (spec/30_encoding.md
R120, R121), with the data that travels beside the descriptor (R120) as arguments. -/

namespace Sys2Proof

/-- An operation of the block. None is a fence or a barrier (spec/20_memory.md R74). -/
inductive Instr where
  -- class 0x0: the TICK of agent CLK and its named sub-events
  | tick
  | tickCfgDrain
  | tickCfgLoad
  | tickSav
  | tickBeat
  | tickEav
  | tickAdvance
  | tickSample
  -- class 0x1: the steps of agent DRU
  | druDispatch
  | druCopy
  | druTail
  | druTerm
  | druHookReq
  | druSched
  -- class 0x2: the port actions of agents RAST and HOOK
  | rastWb8 (index : Half) (data : Byte)
  | rastWb32 (windex : BitVec 14) (data : Word)
  | rastResp (d : Word)
  | hookAck
  -- class 0x3: register writes of agent HOST
  | wrCtrl (v : Word)
  | wrStatus (v : Word)
  | wrLine (v : Word)
  | wrBandHead (v : Word)
  | wrTLinePixels (v : Word)
  | wrTSyncPixels (v : Word)
  | wrTBackPorchPixels (v : Word)
  | wrTVideoLead (v : Word)
  | wrTVideoPixels (v : Word)
  | wrTPolarity (v : Word)
  | wrTVsyncStartLine (v : Word)
  | wrTVsyncEndLine (v : Word)
  | wrTVideoStartLine (v : Word)
  | wrTVideoEndLine (v : Word)
  | wrTClockConfig (v : Word)
  | wrCmd (v : Word)
  /-- A write at a reserved offset; `reg` is `op[7:2]`, the offset divided by 4. -/
  | wrReserved (reg : BitVec 6) (v : Word)
  -- class 0x4: register reads of agent HOST
  | rdCtrl
  | rdStatus
  | rdLine
  | rdBandHead
  | rdTLinePixels
  | rdTSyncPixels
  | rdTBackPorchPixels
  | rdTVideoLead
  | rdTVideoPixels
  | rdTPolarity
  | rdTVsyncStartLine
  | rdTVsyncEndLine
  | rdTVideoStartLine
  | rdTVideoEndLine
  | rdTClockConfig
  | rdCmd
  /-- A read at a reserved offset; `reg` is `op[7:2]`, the offset divided by 4. -/
  | rdReserved (reg : BitVec 6)
  -- class 0x5: agent RST
  | reset
deriving DecidableEq, Repr

end Sys2Proof
end

