-- ==== Sys2Proof/WellFormed.lean ====
section
/-! DEFINITION. Which operation terms have an encoding. The only operands with values no descriptor carries are the register
numbers of the two reserved rows, which "apply only to offsets 0x3C and 0x44-0xFC" (spec/opcode_table.json, spec/30_encoding.md
R90, R121). -/

namespace Sys2Proof

/-- `reg` (an offset divided by 4) is a reserved register: offset 0x3C, or 0x44 to 0xFC (R90, R99). -/
def reservedReg (reg : BitVec 6) : Bool :=
  reg.toNat == 15 || decide (17 ≤ reg.toNat)

/-- The check of a reserved write. -/
def wellFormedWrReserved (reg : BitVec 6) : Bool := reservedReg reg

/-- The check of a reserved read. -/
def wellFormedRdReserved (reg : BitVec 6) : Bool := reservedReg reg

/-- Every operation but a reserved access is well formed at every value of its operands. -/
def Instr.wellFormed (i : Instr) : Bool :=
  match i with
  | .tick | .tickCfgDrain | .tickCfgLoad | .tickSav | .tickBeat | .tickEav | .tickAdvance | .tickSample => true
  | .druDispatch | .druCopy | .druTail | .druTerm | .druHookReq | .druSched => true
  | .rastWb8 _ _ | .rastWb32 _ _ | .rastResp _ | .hookAck => true
  | .wrCtrl _ | .wrStatus _ | .wrLine _ | .wrBandHead _ => true
  | .wrTLinePixels _ | .wrTSyncPixels _ | .wrTBackPorchPixels _ | .wrTVideoLead _ | .wrTVideoPixels _ => true
  | .wrTPolarity _ | .wrTVsyncStartLine _ | .wrTVsyncEndLine _ | .wrTVideoStartLine _ | .wrTVideoEndLine _ => true
  | .wrTClockConfig _ | .wrCmd _ => true
  | .wrReserved reg _ => wellFormedWrReserved reg
  | .rdCtrl | .rdStatus | .rdLine | .rdBandHead => true
  | .rdTLinePixels | .rdTSyncPixels | .rdTBackPorchPixels | .rdTVideoLead | .rdTVideoPixels => true
  | .rdTPolarity | .rdTVsyncStartLine | .rdTVsyncEndLine | .rdTVideoStartLine | .rdTVideoEndLine => true
  | .rdTClockConfig | .rdCmd => true
  | .rdReserved reg => wellFormedRdReserved reg
  | .reset => true

end Sys2Proof
end

