-- ==== Sys2Proof/Decode.lean ====
section
/-! DEFINITION. Decoding and encoding. An operation is named by a 16-bit descriptor (spec/30_encoding.md R120 to R123); its
data "travels beside its descriptor, not inside it", in 48 bits here, the widest operand set being `windex` and a word.
The spec gives those 48 bits no layout; the one here (each operand in the order R120 lists them, from bit 0, a 14-bit
`windex` in a 16-bit lane) is a DESIGN CHOICE (notes/assumptions/3.md). -/

namespace Sys2Proof

/-- Why a descriptor and its data name no operation. -/
inductive DecodeError where
  /-- Class 0x6 to 0xF (R120, R122). Raised by `decode`; safe: the spec's trace decoder refuses it too. -/
  | reservedClass
  /-- A code of class 0x0, 0x1, 0x2 or 0x5 that R121 does not list (R122). Raised by `decode`; safe, as above. -/
  | reservedCode
  /-- A host access descriptor with `op[11:8] ≠ 0`: an offset at or above 0x100, which the block never sees (R122).
  Raised by `decode`; safe: it names no operation of the block. -/
  | outsideBlock
  /-- A host access descriptor with `op[1:0] ≠ 0` (R122). Raised by `decode`; it names no register, and `step` raises
  `Fault(REG_ACCESS)` for it, as R122 and R230 say. -/
  | misalignedOffset
  /-- A data bit set that no operand of the operation has. Raised by `decode`; safe: no port carries such a bit. -/
  | operandBits
deriving DecidableEq, Repr

/-- `op[15:12]` (R120). -/
def opClass (op : BitVec 16) : BitVec 4 := op.extractLsb' 12 4

/-- `op[11:0]` (R120). -/
def opCode (op : BitVec 16) : BitVec 12 := op.extractLsb' 0 12

/-- `op[7:2]`: the register number of a host access, its byte offset divided by 4 (R120). -/
def opReg (op : BitVec 16) : BitVec 6 := op.extractLsb' 2 6

/-- Class 0x0 (R121). -/
def tickOfCode (code : BitVec 12) : Option Instr :=
  match code.toNat with
  | 0 => some .tick
  | 1 => some .tickCfgDrain
  | 2 => some .tickCfgLoad
  | 3 => some .tickSav
  | 4 => some .tickBeat
  | 5 => some .tickEav
  | 6 => some .tickAdvance
  | 7 => some .tickSample
  | _ => none

/-- Class 0x1 (R121). -/
def druOfCode (code : BitVec 12) : Option Instr :=
  match code.toNat with
  | 0 => some .druDispatch
  | 1 => some .druCopy
  | 2 => some .druTail
  | 3 => some .druTerm
  | 4 => some .druHookReq
  | 5 => some .druSched
  | _ => none

/-- Class 0x5 (R121). -/
def resetOfCode (code : BitVec 12) : Option Instr :=
  match code.toNat with
  | 0 => some .reset
  | _ => none

/-- A register write by register number (R121; the register map R90). -/
def wrOf (reg : BitVec 6) (v : Word) : Instr :=
  match reg.toNat with
  | 0 => .wrCtrl v
  | 1 => .wrStatus v
  | 2 => .wrLine v
  | 3 => .wrBandHead v
  | 4 => .wrTLinePixels v
  | 5 => .wrTSyncPixels v
  | 6 => .wrTBackPorchPixels v
  | 7 => .wrTVideoLead v
  | 8 => .wrTVideoPixels v
  | 9 => .wrTPolarity v
  | 10 => .wrTVsyncStartLine v
  | 11 => .wrTVsyncEndLine v
  | 12 => .wrTVideoStartLine v
  | 13 => .wrTVideoEndLine v
  | 14 => .wrTClockConfig v
  | 16 => .wrCmd v
  | _ => .wrReserved reg v

/-- A register read by register number (R121; the register map R90). -/
def rdOf (reg : BitVec 6) : Instr :=
  match reg.toNat with
  | 0 => .rdCtrl
  | 1 => .rdStatus
  | 2 => .rdLine
  | 3 => .rdBandHead
  | 4 => .rdTLinePixels
  | 5 => .rdTSyncPixels
  | 6 => .rdTBackPorchPixels
  | 7 => .rdTVideoLead
  | 8 => .rdTVideoPixels
  | 9 => .rdTPolarity
  | 10 => .rdTVsyncStartLine
  | 11 => .rdTVsyncEndLine
  | 12 => .rdTVideoStartLine
  | 13 => .rdTVideoEndLine
  | 14 => .rdTClockConfig
  | 16 => .rdCmd
  | _ => .rdReserved reg

/-- An operation without data (R120, R124). -/
def withoutData (i : Option Instr) (data : BitVec 48) : Except DecodeError Instr :=
  match i with
  | none => .error .reservedCode
  | some i => if data = 0#48 then .ok i else .error .operandBits

/-- An operation with one 32-bit operand: a register write's `v` or a response's `d` (R120). -/
def withWord (i : Word → Instr) (data : BitVec 48) : Except DecodeError Instr :=
  if data.extractLsb' 32 16 = 0#16 then .ok (i (data.extractLsb' 0 32)) else .error .operandBits

/-- Class 0x2 (R121) with its data: a byte write's `(index, data)`, a word write's `(windex, data)`, a response's `d`. -/
def portOfCode (code : BitVec 12) (data : BitVec 48) : Except DecodeError Instr :=
  match code.toNat with
  | 0 =>
    if data.extractLsb' 24 24 = 0#24 then .ok (.rastWb8 (data.extractLsb' 0 16) (data.extractLsb' 16 8))
    else .error .operandBits
  | 1 =>
    if data.extractLsb' 14 2 = 0#2 then .ok (.rastWb32 (data.extractLsb' 0 14) (data.extractLsb' 16 32))
    else .error .operandBits
  | 2 => withWord .rastResp data
  | 3 => withoutData (some .hookAck) data
  | _ => .error .reservedCode

/-- The register number of a host access descriptor, classes 0x3 and 0x4 (R120, R122). -/
def hostReg (op : BitVec 16) : Except DecodeError (BitVec 6) :=
  if op.extractLsb' 8 4 ≠ 0#4 then .error .outsideBlock
  else if op.extractLsb' 0 2 ≠ 0#2 then .error .misalignedOffset
  else .ok (opReg op)

/-- The operation a descriptor names, with its data: total, and refusing by name what names none (R121, R122). -/
def decode (op : BitVec 16) (data : BitVec 48) : Except DecodeError Instr :=
  match (opClass op).toNat with
  | 0 => withoutData (tickOfCode (opCode op)) data
  | 1 => withoutData (druOfCode (opCode op)) data
  | 2 => portOfCode (opCode op) data
  | 3 =>
    match hostReg op with
    | .error e => .error e
    | .ok reg => withWord (wrOf reg) data
  | 4 =>
    match hostReg op with
    | .error e => .error e
    | .ok reg => withoutData (some (rdOf reg)) data
  | 5 => withoutData (resetOfCode (opCode op)) data
  | _ => .error .reservedClass

/-- The decoder on an operation numbered as spec/opcode_table.json numbers it: bits 15..0 the descriptor, the data beside it
from bit 16 on, every bit above `nbits` 0. -/
def decodeTableWord (nbits w : Nat) : Option Instr :=
  let bits := w % 2 ^ nbits
  match decode (BitVec.ofNat 16 bits) (BitVec.ofNat 48 (bits / 65536)) with
  | .ok i => some i
  | .error _ => none

/-! ### Encoding -/

/-- The descriptor of a register access: class, then the byte offset with `op[11:8] = 0` and `op[1:0] = 00` (R120). -/
def accessOp (cls : BitVec 4) (reg : BitVec 6) : BitVec 16 := cls ++ 0#4 ++ reg ++ 0#2

/-- The 16-bit descriptor of an operation (R121). -/
def encodeOp (i : Instr) : BitVec 16 :=
  match i with
  | .tick => 0x0000#16
  | .tickCfgDrain => 0x0001#16
  | .tickCfgLoad => 0x0002#16
  | .tickSav => 0x0003#16
  | .tickBeat => 0x0004#16
  | .tickEav => 0x0005#16
  | .tickAdvance => 0x0006#16
  | .tickSample => 0x0007#16
  | .druDispatch => 0x1000#16
  | .druCopy => 0x1001#16
  | .druTail => 0x1002#16
  | .druTerm => 0x1003#16
  | .druHookReq => 0x1004#16
  | .druSched => 0x1005#16
  | .rastWb8 _ _ => 0x2000#16
  | .rastWb32 _ _ => 0x2001#16
  | .rastResp _ => 0x2002#16
  | .hookAck => 0x2003#16
  | .wrCtrl _ => 0x3000#16
  | .wrStatus _ => 0x3004#16
  | .wrLine _ => 0x3008#16
  | .wrBandHead _ => 0x300C#16
  | .wrTLinePixels _ => 0x3010#16
  | .wrTSyncPixels _ => 0x3014#16
  | .wrTBackPorchPixels _ => 0x3018#16
  | .wrTVideoLead _ => 0x301C#16
  | .wrTVideoPixels _ => 0x3020#16
  | .wrTPolarity _ => 0x3024#16
  | .wrTVsyncStartLine _ => 0x3028#16
  | .wrTVsyncEndLine _ => 0x302C#16
  | .wrTVideoStartLine _ => 0x3030#16
  | .wrTVideoEndLine _ => 0x3034#16
  | .wrTClockConfig _ => 0x3038#16
  | .wrCmd _ => 0x3040#16
  | .wrReserved reg _ => accessOp 0x3#4 reg
  | .rdCtrl => 0x4000#16
  | .rdStatus => 0x4004#16
  | .rdLine => 0x4008#16
  | .rdBandHead => 0x400C#16
  | .rdTLinePixels => 0x4010#16
  | .rdTSyncPixels => 0x4014#16
  | .rdTBackPorchPixels => 0x4018#16
  | .rdTVideoLead => 0x401C#16
  | .rdTVideoPixels => 0x4020#16
  | .rdTPolarity => 0x4024#16
  | .rdTVsyncStartLine => 0x4028#16
  | .rdTVsyncEndLine => 0x402C#16
  | .rdTVideoStartLine => 0x4030#16
  | .rdTVideoEndLine => 0x4034#16
  | .rdTClockConfig => 0x4038#16
  | .rdCmd => 0x4040#16
  | .rdReserved reg => accessOp 0x4#4 reg
  | .reset => 0x5000#16

/-- The data beside the descriptor (R120; layout: notes/assumptions/3.md). -/
def encodeData (i : Instr) : BitVec 48 :=
  match i with
  | .rastWb8 index data => 0#24 ++ data ++ index
  | .rastWb32 windex data => data ++ 0#2 ++ windex
  | .rastResp d => 0#16 ++ d
  | .wrCtrl v | .wrStatus v | .wrLine v | .wrBandHead v => 0#16 ++ v
  | .wrTLinePixels v | .wrTSyncPixels v | .wrTBackPorchPixels v | .wrTVideoLead v | .wrTVideoPixels v => 0#16 ++ v
  | .wrTPolarity v | .wrTVsyncStartLine v | .wrTVsyncEndLine v | .wrTVideoStartLine v | .wrTVideoEndLine v => 0#16 ++ v
  | .wrTClockConfig v | .wrCmd v | .wrReserved _ v => 0#16 ++ v
  | .tick | .tickCfgDrain | .tickCfgLoad | .tickSav | .tickBeat | .tickEav | .tickAdvance | .tickSample => 0#48
  | .druDispatch | .druCopy | .druTail | .druTerm | .druHookReq | .druSched | .hookAck => 0#48
  | .rdCtrl | .rdStatus | .rdLine | .rdBandHead => 0#48
  | .rdTLinePixels | .rdTSyncPixels | .rdTBackPorchPixels | .rdTVideoLead | .rdTVideoPixels => 0#48
  | .rdTPolarity | .rdTVsyncStartLine | .rdTVsyncEndLine | .rdTVideoStartLine | .rdTVideoEndLine => 0#48
  | .rdTClockConfig | .rdCmd | .rdReserved _ | .reset => 0#48

/-- The words of an operation: its descriptor and the data beside it. -/
def encode (i : Instr) : BitVec 16 × BitVec 48 := (encodeOp i, encodeData i)

end Sys2Proof
end

