-- ==== Sys2Proof/Machine/State.lean ====
section
/-! DEFINITION. The state of the machine: every element of spec/10_state.md R22 to R43, the sampled output pins (R44, R138),
the TICK's local variables (R130), host memory and the HOST agent's own state (R6, R60, R240), the parameters (R8), and the
schedule that says which agent steps next (R6; notes/assumptions/1.md). All of it is plain data. -/

namespace Sys2Proof.Machine

/-- The fault codes of spec/60_exceptions.md R261, in the order of their numbers 1 to 11. Raising one is a next state with
`fault` set (R260.1); in that state every operation but RESET answers `Outcome.fault` with it (R260.2). Each is safe: it
"marks a point where the source calls the behaviour undefined, or where the chip's behaviour is not known" (R260). -/
inductive Fault where
  /-- Code 1. Raised by CFG_LOAD when `SH` fails `WF` (R238, R239). Safe. -/
  | undefTiming
  /-- Code 2. Raised by EAV when the next SAV point is at or after `hend` (R151). Safe. -/
  | savRange
  /-- Code 3. Raised by SAV when a stream is busy at the trigger point (R170). Safe. -/
  | dmaOverlap
  /-- Code 4. Raised by SAV when the stream would run past the end of the line (R170). Safe. -/
  | dmaPastLine
  /-- Code 5. Raised by RAST.RESP when the length leaves no room for the terminator (R215). Safe. -/
  | shapeLength
  /-- Code 6. Raised by DRU.SCHED when a band with lines left has token 0 (R210). Safe. -/
  | nullRasterizer
  /-- Code 7. Raised by a node read at an address that is not a multiple of 4 (R66). Safe. -/
  | bandMisaligned
  /-- Code 8. Raised by a node read at an address that is not `MAPPED` (R66). Safe. -/
  | busError
  /-- Code 9. Raised by RAST.WB8 and RAST.WB32 for an index at or beyond `BUF_BYTES` (R214). Safe. -/
  | wbRange
  /-- Code 10. Raised by BEAT, DRU.COPY and DRU.TAIL for a buffer cell no step has written (R172, R192, R194). Safe. -/
  | unwrittenRead
  /-- Code 11. Raised by a host access that is not 32-bit or not 4-aligned (R230). Safe. -/
  | regAccess
deriving DecidableEq, Repr

/-- Why `step` gives no meaning to what the schedule offers. -/
inductive Refusal where
  /-- An operation without a meaning yet; said by exec's arms only, and by none of them in this model. Safe. -/
  | notModelled (mnemonic : String)
  /-- Said by `step` when a scheduled descriptor names no operation (R122: "a decoder of traces refuses it"). Safe. -/
  | undecodable (why : DecodeError)
  /-- Said by `step` for a host memory write that runs past the last 32-bit address (R60.4; notes/assumptions/16.md): such a
  byte does not exist. Safe. -/
  | hostMemoryEnd
deriving DecidableEq, Repr

/-- `state`, the 2-bit Gray code (R27); its bits are `DisplayState.bits`. -/
inductive DisplayState where
  | blank
  | starting
  | active
  | finishing
deriving DecidableEq, Repr

/-- `cfg_phase` (R25). -/
inductive CfgPhase where
  | idle
  | drain
  | quiesce
deriving DecidableEq, Repr

/-- `dru.phase` (R33). -/
inductive DruPhase where
  | idle
  | copy
  | tail
  | term
  | hook
  | hookWait
  | sched
  | renderWait
deriving DecidableEq, Repr

/-- A timing set: the fields of the shadow set `SH` and of the active set `T` (R23, R24). -/
structure Timing where
  linePixels : Half
  syncPixels : Half
  backPorchPixels : Half
  videoLead : Half
  videoPixels : Half
  hpol : Bool
  vpol : Bool
  vsyncStartLine : Half
  vsyncEndLine : Half
  videoStartLine : Half
  videoEndLine : Half
  clockConfig : Word
deriving DecidableEq, Repr

/-- Every field 0: the reset value of `SH` and `T` (R23, R24). -/
def Timing.zero : Timing where
  linePixels := 0
  syncPixels := 0
  backPorchPixels := 0
  videoLead := 0
  videoPixels := 0
  hpol := false
  vpol := false
  vsyncStartLine := 0
  vsyncEndLine := 0
  videoStartLine := 0
  videoEndLine := 0
  clockConfig := 0

/-- The fields of a band: of `current_band` (R31) and of a node in host memory (R70). -/
structure Band where
  rast : Word
  count : Word
  next : Word
deriving DecidableEq, Repr

/-- `EMPTY` (spec/20_memory.md R71). -/
def Band.empty : Band := ⟨0, 0, 0⟩

/-- A `LineShape` (R36). -/
structure LineShape where
  offset : Half
  length : Half
deriving DecidableEq, Repr

/-- The deferred render unit's phase and latches (R33). -/
structure Dru where
  phase : DruPhase
  stSnap : DisplayState
  lineSnap : Half
  copyLen : Half
  copyIdx : Half
deriving DecidableEq, Repr

/-- The DMA stream state (R38). -/
structure Dma where
  busy : Bool
  delay : Half
  idx : Count
  cnt : Count
deriving DecidableEq, Repr

/-- The pins that hold their value from one SAMPLE to the next (R138); `none` is `Z` (R10, R44). -/
structure Pins where
  hsync : Option Bool
  vsync : Option Bool
  pix : Option Byte
  evt : Bool
deriving DecidableEq, Repr

/-- Bytes by address or index, as a list in rising order; what is not listed is what `Machine/Memory.lean` says. -/
abbrev Cells := List Host.Cell

/-- The width of a host bus access in bits. The spec says "a 32-bit read or write" and "another width" (R230) and lists no
other width, so every number is one: 8, 16, 64 and the rest. -/
abbrev AccessWidth := Nat

/-- The names that the host procedures bind (R242 to R249: `c` for a CTRL value, `s` for a STATUS value). -/
inductive HostName where
  | c
  | s
deriving DecidableEq, Repr

/-- The values bound to them. Only a read of the host's own program binds a name (spec/30_encoding.md R124: "result bound to
name"). -/
structure HostVars where
  c : Word
  s : Word
deriving DecidableEq, Repr

/-- A step of the HOST agent's own program (R6: it "makes register accesses, writes host memory and waits"), as the host
procedures of spec/45_host_interface.md R240 to R249 use them. -/
inductive HostOp where
  /-- `WR reg, v`; `reg` is the byte offset divided by 4. -/
  | wr (reg : BitVec 6) (v : Word)
  /-- `RD reg -> name`. -/
  | rd (reg : BitVec 6) (name : HostName)
  /-- `WR reg, (name & ~clear) | set` (R242, R243). -/
  | wrBack (reg : BitVec 6) (name : HostName) (clear set : Word)
  /-- A bus access of any width at any address (R230). -/
  | bus (write : Bool) (width : AccessWidth) (addr v : Word)
  /-- `MemWrite(addr, n, v)` (R10): a host memory write of the `n` low bytes of `v`, little-endian as `MW` is (R124, with
  `n = 4`). -/
  | mw (n : Nat) (addr : Word) (v : Nat)
  /-- `l: RD STATUS -> s ; if s[bit] = level: WFE ; goto l` at its read (R240). -/
  | poll (bit : Fin 32) (level : Bool)
  /-- The same loop at its `WFE` (R240). -/
  | sleep (bit : Fin 32) (level : Bool)
deriving DecidableEq, Repr

/-- One entry of the schedule: which agent steps next, and with what (R6). None is a fence: the block has none, and the host's
barriers are its own (R74). -/
inductive Input where
  /-- The operation a descriptor names, with the data beside it (R120). -/
  | op (descriptor : BitVec 16) (data : BitVec 48)
  /-- `DRU`: the one DRU step enabled now (R124, R189). -/
  | dru
  /-- The HOST agent takes the next step of its own program. -/
  | host
  /-- The HOST agent is given a procedure to run after what it has (R240). -/
  | call (program : List HostOp)
deriving DecidableEq, Repr

structure State where
  /-- The parameters of R8. No step writes them. -/
  params : Params
  /-- MODEL's own: the steps the agents take next, first one first; when it is empty the pixel clock and the DRU take turns
  (R6, R7; notes/assumptions/1.md). -/
  schedule : List Input
  /-- MODEL's own: with nothing scheduled, whether it is the DRU's turn or the pixel clock's (R7; notes/assumptions/1.md). -/
  druTurn : Bool
  /-- `fault` (R43). -/
  fault : Option Fault
  /-- `VIDEO_EN` (R22). -/
  videoEn : Bool
  /-- `SYNC_EN` (R22). -/
  syncEn : Bool
  /-- `SH` (R23). -/
  sh : Timing
  /-- `T` (R24). -/
  t : Timing
  /-- `RUN` (R25). -/
  run : Bool
  /-- `cfg_phase` (R25). -/
  cfgPhase : CfgPhase
  /-- `hcount` (R26). -/
  hcount : Half
  /-- `sav_cmp` (R26). -/
  savCmp : Half
  /-- `sav_cmp_next` (R26). -/
  savCmpNext : Half
  /-- `state` (R27). -/
  display : DisplayState
  /-- `current_line` (R28). -/
  currentLine : Half
  /-- `vsync_level` (R29). -/
  vsyncLevel : Bool
  /-- `BAND_HEAD` (R30). -/
  bandHead : Word
  /-- `BAND_TAKEN` (R30). -/
  bandTaken : Bool
  /-- `current_band` (R31). -/
  currentBand : Band
  /-- `defer_pending` (R32). -/
  deferPending : Bool
  /-- `dru.phase` and the DRU latches (R33). -/
  dru : Dru
  /-- `hook_req` (R34). -/
  hookReq : Bool
  /-- `rtok` (R35). -/
  rtok : Word
  /-- `ridx` (R35). -/
  ridx : Half
  /-- `work_shape` (R36). -/
  workShape : LineShape
  /-- `dma_count` (R37). -/
  dmaCount : Count
  /-- `dma.busy`, `dma.delay`, `dma.idx`, `dma.cnt` (R38). -/
  dma : Dma
  /-- `pix_latch` (R39). -/
  pixLatch : Byte
  /-- `evt` (R40). -/
  evt : Bool
  /-- `clk_cfg_o` (R41). -/
  clkCfgO : Word
  /-- `WB` (R42): the written cells. -/
  wb : Cells
  /-- `SB` (R42): the written cells. -/
  sb : Cells
  /-- The sampled pins (R44, R138). -/
  pins : Pins
  /-- The TICK's local `htg_ran` (R130), as the last TICK left it. -/
  htgRan : Bool
  /-- The TICK's local `h` (R130), as the last TICK left it. -/
  tickH : Half
  /-- Host memory (R60.4), which RESET leaves alone (R290). -/
  hostMem : Cells
  /-- `host_evt`, the HOST agent's event bit (R240), which RESET leaves alone (R290). -/
  hostEvt : Bool
  /-- The value the last register read gave the HOST agent (R235). MODEL's own home for it (notes/assumptions/9.md). -/
  rdData : Word
  /-- The names the HOST agent's own program has bound (R124; notes/assumptions/17.md). -/
  hostVars : HostVars
  /-- The HOST agent's own program (R240; notes/assumptions/17.md). -/
  hostProg : List HostOp
deriving DecidableEq, Repr

/-- The machine right after reset: spec/70_reset_and_hazards.md R291, and its pins. What R291 does not list is the model's or
the environment's: the parameters (notes/assumptions/12.md), an empty schedule, host memory with nothing written, and a host
that has latched, read and begun nothing (notes/assumptions/8.md to 11.md, 17.md). -/
def State.reset : State where
  params := Params.ofTestVectors
  schedule := []
  druTurn := false
  fault := none
  videoEn := false
  syncEn := false
  sh := Timing.zero
  t := Timing.zero
  run := false
  cfgPhase := .idle
  hcount := 0
  savCmp := 0
  savCmpNext := 0
  display := .blank
  currentLine := 0
  vsyncLevel := false
  bandHead := 0
  bandTaken := false
  currentBand := Band.empty
  deferPending := false
  dru := ⟨.idle, .blank, 0, 0, 0⟩
  hookReq := false
  rtok := 0
  ridx := 0
  workShape := ⟨0, 0⟩
  dmaCount := 0
  dma := ⟨false, 0, 0, 0⟩
  pixLatch := 0
  evt := false
  clkCfgO := 0
  wb := []
  sb := []
  pins := ⟨none, none, none, false⟩
  htgRan := false
  tickH := 0
  hostMem := []
  hostEvt := false
  rdData := 0
  hostVars := ⟨0, 0⟩
  hostProg := []

end Sys2Proof.Machine
end

