-- ==== Sys2Proof/Machine/Flags.lean ====
section
/-! DEFINITION. The status flags, register words and output pins, as functions of the state: the two bits of the display state
(spec/10_state.md R27), `STATUS` (R46, spec/30_encoding.md R92), the words a register read returns (R90 to R99), and the
outputs of R44. -/

namespace Sys2Proof.Machine

/-- The Gray code of R27. -/
def DisplayState.bits (d : DisplayState) : BitVec 2 :=
  match d with
  | .blank => 0b00#2
  | .starting => 0b01#2
  | .active => 0b11#2
  | .finishing => 0b10#2

/-- `bit0(state)`: should render a line now (R27). -/
def DisplayState.renders (d : DisplayState) : Bool := d.bits.getLsbD 0

/-- `bit1(state)`: should display pixels now (R27). -/
def DisplayState.displays (d : DisplayState) : Bool := d.bits.getLsbD 1

/-- `wb_grant` (R35, R213). -/
def wbGrant (s : State) : Bool := s.dru.phase == .renderWait

/-- `IN_VBLANK` (R46). -/
def inVblank (s : State) : Bool := decide (s.currentLine.toNat < s.t.videoStartLine.toNat)

/-- `DRU_BUSY` (R46). -/
def druBusy (s : State) : Bool := s.dru.phase != .idle

/-- `CFG_BUSY` (R46). -/
def cfgBusy (s : State) : Bool := s.cfgPhase != .idle

/-! ### Register words -/

/-- `CTRL` (R91). -/
def ctrlWord (s : State) : Word := 0#30 ++ BitVec.ofBool s.syncEn ++ BitVec.ofBool s.videoEn

/-- `STATUS` (R92), from bit 10 down to bit 0. -/
def statusWord (s : State) : Word :=
  0#21 ++ BitVec.ofBool s.vsyncLevel ++ BitVec.ofBool (cfgBusy s) ++ BitVec.ofBool s.run ++ BitVec.ofBool s.dma.busy
    ++ BitVec.ofBool (wbGrant s) ++ BitVec.ofBool (druBusy s) ++ BitVec.ofBool s.deferPending
    ++ BitVec.ofBool s.bandTaken ++ BitVec.ofBool (inVblank s) ++ s.display.bits

/-- `LINE` (R93). -/
def lineWord (s : State) : Word := s.hcount ++ s.currentLine

/-- A 16-bit timing register: `zext_32(SH.field)` (R95). -/
def timingWord (f : Half) : Word := 0#16 ++ f

/-- `T_POLARITY` (R96). -/
def polarityWord (x : Timing) : Word := 0#30 ++ BitVec.ofBool x.vpol ++ BitVec.ofBool x.hpol

/-- What a reserved offset, and `CMD`, read as (R98, R99). -/
def zeroWord : Word := 0#32

/-! ### Output pins (R44) -/

/-- `level(active, pol)` (R44). -/
def level (active pol : Bool) : Bool := if active then pol else !pol

/-- HSYNC is active: the generator ran in this TICK, at a position inside the sync pulse (R132). -/
def hsyncActive (s : State) : Bool := s.htgRan && decide (s.tickH.toNat < s.t.syncPixels.toNat)

/-- The sampled pins as a function of the state that sub-steps 1 to 4 left (R44, R138). -/
def pinsOf (s : State) : Pins where
  hsync := if s.syncEn then some (level (hsyncActive s) s.t.hpol) else none
  vsync := if s.syncEn then some s.vsyncLevel else none
  pix := if s.videoEn then some s.pixLatch else none
  evt := s.evt

/-- `CLK_CFG_O` (R44). -/
def clkCfgPin (s : State) : Word := s.clkCfgO

/-- `HOOK_REQ_O` (R44, R103). -/
def hookReqPin (s : State) : Bool := s.hookReq

/-- `RAST_REQ_O`: `(rtok, ridx)` when valid (R44, R100). -/
def rastReqPin (s : State) : Option (Word × Half) := if wbGrant s then some (s.rtok, s.ridx) else none

/-- `WB_GNT_O` (R44, R213). -/
def wbGntPin (s : State) : Bool := wbGrant s

end Sys2Proof.Machine
end

