-- ==== Sys2Proof/Machine/Memory.lean ====
section
/-! DEFINITION. The byte stores: the line buffers (an unlisted cell is *unwritten*, spec/10_state.md R42) and host memory (an
unlisted byte reads 0, notes/assumptions/11.md), with the little-endian words of spec/20_memory.md R63 and R66. -/

namespace Sys2Proof.Machine

/-! ### Cells -/

/-- The byte listed at `a`. -/
def Cells.read : Cells → Nat → Option Byte
  | [], _ => none
  | c :: cs, a => if c.1 = a then some c.2 else Cells.read cs a

/-- List `b` at `a`, in its place in the rising order. -/
def Cells.write : Cells → Nat → Byte → Cells
  | [], a, b => [(a, b)]
  | c :: cs, a, b =>
    if a < c.1 then (a, b) :: c :: cs
    else if a = c.1 then (a, b) :: cs
    else c :: Cells.write cs a b

/-- List nothing at `a`. -/
def Cells.erase (m : Cells) (a : Nat) : Cells := m.filter fun c => c.1 != a

/-- List `f i` at every `i` from `lo` up to, not including, `hi`. -/
def Cells.fill (m : Cells) (lo hi : Nat) (f : Nat → Byte) : Cells :=
  m.filter (fun c => decide (c.1 < lo))
    ++ (List.range' lo (hi - lo)).map (fun i => (i, f i))
    ++ m.filter (fun c => decide (max lo hi ≤ c.1))

/-- The canonical form of a cell list: rising keys, so that equal contents are equal lists. -/
abbrev Cells.rising (m : Cells) : Prop := m.Pairwise fun x y => x.1 < y.1

/-! ### Little-endian words -/

/-- Byte `j` of a word: bits `8j+7 .. 8j` (R63, R78). -/
def byteOf (w : Word) (j : Nat) : Byte := w.extractLsb' (8 * j) 8

/-- The word `{b3, b2, b1, b0}` (R63). -/
def wordOf (b0 b1 b2 b3 : Byte) : Word := b3 ++ b2 ++ b1 ++ b0

/-! ### The line buffers -/

/-- `WBword(k)` or `SBword(k)` (R63), if none of its four bytes is unwritten. -/
def readWord (m : Cells) (k : Nat) : Option Word :=
  match m.read (4 * k), m.read (4 * k + 1), m.read (4 * k + 2), m.read (4 * k + 3) with
  | some b0, some b1, some b2, some b3 => some (wordOf b0 b1 b2 b3)
  | _, _, _, _ => none

/-- Write word `k` of a buffer (R63, R78). -/
def writeWord (m : Cells) (k : Nat) (w : Word) : Cells :=
  (((m.write (4 * k) (byteOf w 0)).write (4 * k + 1) (byteOf w 1)).write (4 * k + 2) (byteOf w 2)).write (4 * k + 3)
    (byteOf w 3)

/-- Copy `n` bytes from `src` to `dst` at the same indexes from `j` on; `none` if one of them is unwritten. -/
def copyBytes (src : Cells) : Nat → Nat → Cells → Option Cells
  | 0, _, dst => some dst
  | n + 1, j, dst =>
    match src.read j with
    | none => none
    | some b => copyBytes src n (j + 1) (dst.write j b)

/-- The working buffer with `SENTINEL` in every word (R238 step 5). -/
def fillSentinel (p : Params) (m : Cells) : Cells :=
  m.fill 0 p.bufBytes fun i => byteOf p.sentinel (i % 4)

/-- The scan buffer with 0x00 in every cell from `videoPixels` on (R238 step 6). -/
def blankTrailing (p : Params) (videoPixels : Half) (m : Cells) : Cells :=
  m.fill videoPixels.toNat p.bufBytes fun _ => 0#8

/-- A buffer of `n` cells in canonical form. -/
abbrev Buffer.wf (n : Nat) (m : Cells) : Prop := m.rising ∧ ∀ c ∈ m, c.1 < n

/-! ### Host memory -/

/-- The byte host memory holds at `a`. DESIGN CHOICE: 0 where nothing was written (notes/assumptions/11.md). -/
def hostByte (m : Cells) (a : Nat) : Byte := (m.read a).getD 0#8

/-- Write one byte of host memory, keeping the canonical form: a byte that an unlisted address reads as is not listed. -/
def hostWriteByte (m : Cells) (a : Nat) (b : Byte) : Cells :=
  if b = 0#8 then m.erase a else m.write a b

/-- Byte `j` of a host write's value, which has as many bytes as the write. -/
def valueByte (v j : Nat) : Byte := BitVec.ofNat 8 (v / 256 ^ j)

/-- Write the `n` low bytes of `v` at `a`, little-endian (R10, R124). -/
def hostWrite (m : Cells) (a v : Nat) : Nat → Cells
  | 0 => m
  | n + 1 => hostWriteByte (hostWrite m a v n) (a + n) (valueByte v n)

/-- Host memory in canonical form: rising 32-bit addresses, no byte listed that an unlisted address reads as. -/
abbrev Memory.wf (m : Cells) : Prop := m.rising ∧ ∀ c ∈ m, c.1 < 2 ^ 32 ∧ c.2 ≠ 0#8

/-- `MAPPED(a)` (R8, P4): the 4 bytes from `a` lie in the 32-bit space and in one region of the parameters. An address sum
beyond the 32-bit space reaches nothing (notes/assumptions/15.md). -/
def isMapped (p : Params) (a : Nat) : Bool :=
  decide (a + 4 ≤ 2 ^ 32) && p.mapped.any fun r => decide (r.1 ≤ a) && decide (a + 4 ≤ r.1 + r.2)

end Sys2Proof.Machine
end

