-- ==== Sys2Proof/Machine/Operands.lean ====
section
/-! DEFINITION. Operand assembly (spec/30_encoding.md R104): how each operation takes its fields out of the data beside its
descriptor. Every extracted field is zero-extended to the width of its destination; only `windex` is scaled. -/

namespace Sys2Proof.Machine

/-- CTRL `v[0]`, `VIDEO_EN` (R91). -/
def ctrlVideoEn (v : Word) : Bool := v.getLsbD 0

/-- CTRL `v[1]`, `SYNC_EN` (R91). -/
def ctrlSyncEn (v : Word) : Bool := v.getLsbD 1

/-- A 16-bit timing register's `v[15:0]` (R95). -/
def timingField (v : Word) : Half := v.extractLsb' 0 16

/-- T_POLARITY `v[0]`, `HPOL` (R96). -/
def polarityH (v : Word) : Bool := v.getLsbD 0

/-- T_POLARITY `v[1]`, `VPOL` (R96). -/
def polarityV (v : Word) : Bool := v.getLsbD 1

/-- CMD `v[3:0]`, `CODE` (R98). -/
def cmdCode (v : Word) : BitVec 4 := v.extractLsb' 0 4

/-- The response's `LineShape`: `offset = d[15:0]`, `length = d[31:16]` (R101). -/
def responseShape (d : Word) : LineShape := ⟨d.extractLsb' 0 16, d.extractLsb' 16 16⟩

/-- The byte index of byte 0 of word `windex`: scaled by 4 (R102, R104). -/
def windexByte (windex : BitVec 14) : Nat := 4 * windex.toNat

end Sys2Proof.Machine
end

