-- ==== Sys2Proof/Machine/Ops.lean ====
section
/-! DEFINITION. The shared operations: raising a fault and taking an agent's step (spec/60_exceptions.md R260), host memory
reads (spec/20_memory.md R66, R70), the derived positions of a line (spec/40_horizontal_timing.md R131), the predicate `WF`
(spec/45_host_interface.md R239), visibility (spec/43_deferred_render.md R201), and the named updates that several meanings
share. -/

namespace Sys2Proof.Machine

/-! ### Faults -/

/-- `raise Fault(code)`: the step writes nothing except `fault` (R260.1, 00_scope.md R10). The block has no trap entry, saved
state or handler (R267), and only RESET leaves the faulted state (R260.2). -/
def State.raise (s : State) (code : Fault) : State := { s with fault := some code }

/-- One atomic step of an agent, whose writes are `body`. In a faulted state no agent but RST takes a step (R260.2): the
machine stays stopped with that fault. Otherwise the step's writes take effect together, or it raises its fault. -/
def agentStep (s : State) (body : Except Fault State) : Host.Outcome State Fault Refusal :=
  match s.fault with
  | some code => .fault code
  | none =>
    match body with
    | .ok t => .next t
    | .error code => .next (s.raise code)

/-- The step's writes if it is enabled. DEDUCED: a step that is not enabled is not taken, so nothing changes
(notes/assumptions/5.md). -/
def whenEnabled (enabled : Bool) (s : State) (body : Except Fault State) : Except Fault State :=
  if enabled then body else .ok s

/-! ### Host memory reads -/

/-- `MemRead(a, 4)` (R66): `BAND_MISALIGNED` is checked before `BUS_ERROR` (R263). -/
def memRead (s : State) (a : Nat) : Except Fault Word :=
  if a % 4 ≠ 0 then .error .bandMisaligned
  else if isMapped s.params a = false then .error .busError
  else .ok (wordOf (hostByte s.hostMem a) (hostByte s.hostMem (a + 1)) (hostByte s.hostMem (a + 2))
    (hostByte s.hostMem (a + 3)))

/-- `ReadNode(p)` (R70): the three reads in the order R263 gives them. -/
def readNode (s : State) (p : Word) : Except Fault Band :=
  (memRead s p.toNat).bind fun rast =>
  (memRead s (p.toNat + 4)).bind fun count =>
  (memRead s (p.toNat + 8)).bind fun next =>
  .ok ⟨rast, count, next⟩

/-! ### Timing -/

/-- `hstart` (R131): the first active-video pixel clock. -/
def Timing.hstart (x : Timing) : Nat := x.syncPixels.toNat + x.backPorchPixels.toNat

/-- `hend` (R131): the first pixel clock after active video. -/
def Timing.hend (x : Timing) : Nat := x.hstart + x.videoPixels.toNat

/-- `WF(X)` (R239). The arithmetic is exact, so a subtraction on the right of a comparison is an addition on its left. -/
def Timing.wf (x : Timing) : Bool :=
  decide (1 ≤ x.syncPixels.toNat)
    && decide (1 ≤ x.backPorchPixels.toNat)
    && decide (1 ≤ x.videoPixels.toNat)
    && decide (x.videoLead.toNat ≤ x.hstart)
    && decide (x.hend + 1 ≤ x.linePixels.toNat)
    && decide (1 ≤ x.vsyncStartLine.toNat)
    && decide (x.vsyncStartLine.toNat < x.vsyncEndLine.toNat)
    && decide (x.vsyncEndLine.toNat + 1 < x.videoStartLine.toNat)
    && decide (x.videoStartLine.toNat + 1 < x.videoEndLine.toNat)

/-- `A = hstart + offset - video_lead` (R133), exact over the integers. -/
def savPoint (x : Timing) (offset : Half) : Int := (x.hstart : Int) + offset.toNat - x.videoLead.toNat

/-- `VISIBLE(n)` (R201). -/
def visible (x : Timing) (n : Half) : Bool :=
  decide (x.videoStartLine.toNat ≤ n.toNat) && decide (n.toNat < x.videoEndLine.toNat)

/-- `vindex(n)` (R201), defined when `visible x n`. -/
def vindex (x : Timing) (n : Half) : Half := n - x.videoStartLine

/-! ### Named updates -/

/-- A register read gives the host its word and changes no state of the block (R235). -/
def State.returnRead (s : State) (v : Word) : State := { s with rdData := v }

/-- The DRU moves to another phase (R189). -/
def State.toPhase (s : State) (p : DruPhase) : State := { s with dru := { s.dru with phase := p } }

/-- A TICK begins: sub-step 1 (R130). -/
def State.beginTick (s : State) : State := { s with evt := false, htgRan := false }

/-- The generator runs in this TICK: `h <- hcount ; htg_ran <- 1` (R130 sub-step 4). -/
def State.latchH (s : State) : State := { s with htgRan := true, tickH := s.hcount }

end Sys2Proof.Machine
end

