-- ==== Sys2Proof/Machine/Sequencer.lean ====
section
/-! DEFINITION. The configuration sequencer: `TICK.CFG_DRAIN` and `TICK.CFG_LOAD` (spec/45_host_interface.md R236 to R239). -/

namespace Sys2Proof.Machine

/-- `CONFIGURE_START` (R236). -/
def configureStart (s : State) : State := { s with videoEn := false, syncEn := false, cfgPhase := .drain }

/-- `TICK.CFG_DRAIN` with `dma.busy = 0`: the halt and the counter reset are one step (R237). -/
def drainHalt (s : State) : State := { s with run := false, hcount := 0, cfgPhase := .quiesce }

/-- DRAIN completes: `cfg_phase = DRAIN` and no stream is busy (R237). -/
def drainReady (s : State) : Bool := s.cfgPhase == .drain && !s.dma.busy

/-- QUIESCE is over: no deferred work is requested or in progress (R238). -/
def loadReady (s : State) : Bool := !s.deferPending && s.dru.phase == .idle

/-- The writes of `TICK.CFG_LOAD`, steps 2 to 8 of R238. -/
def loadTiming (s : State) : State :=
  { s with
    t := s.sh
    clkCfgO := s.sh.clockConfig
    savCmp := BitVec.ofInt 16 (savPoint s.sh 0)
    savCmpNext := BitVec.ofInt 16 (savPoint s.sh 0)
    workShape := ⟨0, 0⟩
    dmaCount := 0
    wb := fillSentinel s.params s.wb
    sb := blankTrailing s.params s.sh.videoPixels s.sb
    currentLine := 0
    display := .blank
    vsyncLevel := !s.sh.vpol
    run := true
    syncEn := true
    cfgPhase := .idle
    evt := true }

/-- `TICK.CFG_LOAD` in QUIESCE (R238): it waits, or faults, or loads. -/
def cfgLoad (s : State) : Except Fault State :=
  if loadReady s = false then .ok s
  else if s.sh.wf = false then .error .undefTiming
  else .ok (loadTiming s)

/-- `TICK.CFG_DRAIN` on its own (notes/assumptions/4.md). -/
def execTickCfgDrain (s : State) : Host.Outcome State Fault Refusal :=
  agentStep s (whenEnabled (drainReady s) s (.ok (drainHalt s)))

/-- `TICK.CFG_LOAD` on its own (notes/assumptions/4.md). -/
def execTickCfgLoad (s : State) : Host.Outcome State Fault Refusal :=
  agentStep s (whenEnabled (s.cfgPhase == .quiesce) s (cfgLoad s))

end Sys2Proof.Machine
end

