-- ==== Sys2Proof/Machine/HostRegs.lean ====
section
/-! DEFINITION. Host register accesses (spec/45_host_interface.md R231 to R235, spec/30_encoding.md R90 to R99). -/

namespace Sys2Proof.Machine

/-! ### Writes -/

/-- A write that is ignored while `CFG_BUSY = 1` (R231, R233, R234). -/
def writeUnlessBusy (s t : State) : Host.Outcome State Fault Refusal :=
  agentStep s (.ok (if cfgBusy s then s else t))

/-- A write to a timing shadow register (R233). -/
def writeShadow (s : State) (sh : Timing) : Host.Outcome State Fault Refusal :=
  writeUnlessBusy s { s with sh := sh }

/-- A write that changes nothing: to a read-only register or a reserved offset (R99). -/
def writeIgnored (s : State) : Host.Outcome State Fault Refusal := agentStep s (.ok s)

/-- `WR CTRL, v` (R231). -/
def execWrCtrl (v : Word) (s : State) : Host.Outcome State Fault Refusal :=
  writeUnlessBusy s { s with videoEn := ctrlVideoEn v, syncEn := ctrlSyncEn v }

/-- `WR STATUS, v` (R99): ignored at every value. -/
def execWrStatus (_v : Word) (s : State) : Host.Outcome State Fault Refusal := writeIgnored s

/-- `WR LINE, v` (R99): ignored at every value. -/
def execWrLine (_v : Word) (s : State) : Host.Outcome State Fault Refusal := writeIgnored s

/-- `WR BAND_HEAD, v` (R232): accepted while `CFG_BUSY = 1`; head and flag in one step (R75). -/
def execWrBandHead (v : Word) (s : State) : Host.Outcome State Fault Refusal :=
  agentStep s (.ok { s with bandHead := v, bandTaken := false })

/-- `WR T_LINE_PIXELS, v` (R233). -/
def execWrTLinePixels (v : Word) (s : State) : Host.Outcome State Fault Refusal :=
  writeShadow s { s.sh with linePixels := timingField v }

/-- `WR T_SYNC_PIXELS, v` (R233). -/
def execWrTSyncPixels (v : Word) (s : State) : Host.Outcome State Fault Refusal :=
  writeShadow s { s.sh with syncPixels := timingField v }

/-- `WR T_BACK_PORCH_PIXELS, v` (R233). -/
def execWrTBackPorchPixels (v : Word) (s : State) : Host.Outcome State Fault Refusal :=
  writeShadow s { s.sh with backPorchPixels := timingField v }

/-- `WR T_VIDEO_LEAD, v` (R233). -/
def execWrTVideoLead (v : Word) (s : State) : Host.Outcome State Fault Refusal :=
  writeShadow s { s.sh with videoLead := timingField v }

/-- `WR T_VIDEO_PIXELS, v` (R233). -/
def execWrTVideoPixels (v : Word) (s : State) : Host.Outcome State Fault Refusal :=
  writeShadow s { s.sh with videoPixels := timingField v }

/-- `WR T_POLARITY, v` (R233). -/
def execWrTPolarity (v : Word) (s : State) : Host.Outcome State Fault Refusal :=
  writeShadow s { s.sh with hpol := polarityH v, vpol := polarityV v }

/-- `WR T_VSYNC_START_LINE, v` (R233). -/
def execWrTVsyncStartLine (v : Word) (s : State) : Host.Outcome State Fault Refusal :=
  writeShadow s { s.sh with vsyncStartLine := timingField v }

/-- `WR T_VSYNC_END_LINE, v` (R233). -/
def execWrTVsyncEndLine (v : Word) (s : State) : Host.Outcome State Fault Refusal :=
  writeShadow s { s.sh with vsyncEndLine := timingField v }

/-- `WR T_VIDEO_START_LINE, v` (R233). -/
def execWrTVideoStartLine (v : Word) (s : State) : Host.Outcome State Fault Refusal :=
  writeShadow s { s.sh with videoStartLine := timingField v }

/-- `WR T_VIDEO_END_LINE, v` (R233). -/
def execWrTVideoEndLine (v : Word) (s : State) : Host.Outcome State Fault Refusal :=
  writeShadow s { s.sh with videoEndLine := timingField v }

/-- `WR T_CLOCK_CONFIG, v` (R233, R97): all 32 bits. -/
def execWrTClockConfig (v : Word) (s : State) : Host.Outcome State Fault Refusal :=
  writeShadow s { s.sh with clockConfig := v }

/-- `WR CMD, v` (R234): code 1 is CONFIGURE, and every other code has no effect. -/
def execWrCmd (v : Word) (s : State) : Host.Outcome State Fault Refusal :=
  writeUnlessBusy s (if cmdCode v = 1#4 then configureStart s else s)

/-- `WR` at a reserved offset (R99): ignored at every offset and value. -/
def execWrReserved (_reg : BitVec 6) (_v : Word) (s : State) : Host.Outcome State Fault Refusal := writeIgnored s

/-! ### Reads -/

/-- A register read returns `v` and changes no state of the block (R235). -/
def readRegister (s : State) (v : Word) : Host.Outcome State Fault Refusal := agentStep s (.ok (s.returnRead v))

/-- `RD CTRL` (R235, R91). -/
def execRdCtrl (s : State) : Host.Outcome State Fault Refusal := readRegister s (ctrlWord s)

/-- `RD STATUS` (R235, R92). -/
def execRdStatus (s : State) : Host.Outcome State Fault Refusal := readRegister s (statusWord s)

/-- `RD LINE` (R235, R93). -/
def execRdLine (s : State) : Host.Outcome State Fault Refusal := readRegister s (lineWord s)

/-- `RD BAND_HEAD` (R235, R94). -/
def execRdBandHead (s : State) : Host.Outcome State Fault Refusal := readRegister s s.bandHead

/-- `RD T_LINE_PIXELS` (R235, R95). -/
def execRdTLinePixels (s : State) : Host.Outcome State Fault Refusal := readRegister s (timingWord s.sh.linePixels)

/-- `RD T_SYNC_PIXELS` (R235, R95). -/
def execRdTSyncPixels (s : State) : Host.Outcome State Fault Refusal := readRegister s (timingWord s.sh.syncPixels)

/-- `RD T_BACK_PORCH_PIXELS` (R235, R95). -/
def execRdTBackPorchPixels (s : State) : Host.Outcome State Fault Refusal :=
  readRegister s (timingWord s.sh.backPorchPixels)

/-- `RD T_VIDEO_LEAD` (R235, R95). -/
def execRdTVideoLead (s : State) : Host.Outcome State Fault Refusal := readRegister s (timingWord s.sh.videoLead)

/-- `RD T_VIDEO_PIXELS` (R235, R95). -/
def execRdTVideoPixels (s : State) : Host.Outcome State Fault Refusal := readRegister s (timingWord s.sh.videoPixels)

/-- `RD T_POLARITY` (R235, R96). -/
def execRdTPolarity (s : State) : Host.Outcome State Fault Refusal := readRegister s (polarityWord s.sh)

/-- `RD T_VSYNC_START_LINE` (R235, R95). -/
def execRdTVsyncStartLine (s : State) : Host.Outcome State Fault Refusal :=
  readRegister s (timingWord s.sh.vsyncStartLine)

/-- `RD T_VSYNC_END_LINE` (R235, R95). -/
def execRdTVsyncEndLine (s : State) : Host.Outcome State Fault Refusal :=
  readRegister s (timingWord s.sh.vsyncEndLine)

/-- `RD T_VIDEO_START_LINE` (R235, R95). -/
def execRdTVideoStartLine (s : State) : Host.Outcome State Fault Refusal :=
  readRegister s (timingWord s.sh.videoStartLine)

/-- `RD T_VIDEO_END_LINE` (R235, R95). -/
def execRdTVideoEndLine (s : State) : Host.Outcome State Fault Refusal :=
  readRegister s (timingWord s.sh.videoEndLine)

/-- `RD T_CLOCK_CONFIG` (R235, R97). -/
def execRdTClockConfig (s : State) : Host.Outcome State Fault Refusal := readRegister s s.sh.clockConfig

/-- `RD CMD` (R235, R98): reads 0. -/
def execRdCmd (s : State) : Host.Outcome State Fault Refusal := readRegister s zeroWord

/-- `RD` at a reserved offset (R235, R99): reads 0. -/
def execRdReserved (_reg : BitVec 6) (s : State) : Host.Outcome State Fault Refusal := readRegister s zeroWord

end Sys2Proof.Machine
end

