-- ==== Sys2Proof/Machine/Reset.lean ====
section
/-! DEFINITION. `RESET` (spec/70_reset_and_hazards.md R290, R291), the one step that is enabled in a faulted state. -/

namespace Sys2Proof.Machine

/-- Every element at its reset value and `fault` none; the parameters, the schedule, host memory and the host's own state
are no elements of the block and stay (R290). -/
def State.afterReset (s : State) : State :=
  { State.reset with
    params := s.params
    schedule := s.schedule
    druTurn := s.druTurn
    hostMem := s.hostMem
    hostEvt := s.hostEvt
    rdData := s.rdData
    hostVars := s.hostVars
    hostProg := s.hostProg }

/-- `RESET` (R290). -/
def execReset (s : State) : Host.Outcome State Fault Refusal := .next s.afterReset

end Sys2Proof.Machine
end

