-- ==== Sys2Proof/Machine/Render.lean ====
section
/-! DEFINITION. The deferred render unit's flip and hook (spec/43_deferred_render.md R189 to R200): `DRU.DISPATCH`, `DRU.COPY`,
`DRU.TAIL`, `DRU.TERM`, `DRU.HOOK_REQ` and `HOOK.ACK`. -/

namespace Sys2Proof.Machine

/-! ### Enabling conditions (R189) -/

/-- `DRU.DISPATCH` is enabled (R190). -/
def dispatchEnabled (s : State) : Bool := s.dru.phase == .idle && s.deferPending

/-- `DRU.COPY` is enabled (R192, R176). -/
def copyEnabled (s : State) : Bool := s.dru.phase == .copy && !s.dma.busy

/-- `DRU.TAIL` is enabled (R194, R176). -/
def tailEnabled (s : State) : Bool := s.dru.phase == .tail && !s.dma.busy

/-- `DRU.TERM` is enabled (R196, R176). -/
def termEnabled (s : State) : Bool := s.dru.phase == .term && !s.dma.busy

/-- `DRU.HOOK_REQ` is enabled (R199). -/
def hookReqEnabled (s : State) : Bool := s.dru.phase == .hook

/-- `DRU.SCHED` is enabled (spec/44_band_scheduler.md R210). -/
def schedEnabled (s : State) : Bool := s.dru.phase == .sched

/-- The one DRU step enabled in a state, if any (R189). -/
def druStepEnabled (s : State) : Option Instr :=
  match s.dru.phase with
  | .idle => if dispatchEnabled s then some .druDispatch else none
  | .copy => if copyEnabled s then some .druCopy else none
  | .tail => if tailEnabled s then some .druTail else none
  | .term => if termEnabled s then some .druTerm else none
  | .hook => some .druHookReq
  | .hookWait => none
  | .sched => some .druSched
  | .renderWait => none

/-! ### The steps -/

/-- `nw = floor(dru.copy_len / 4)` (R192). -/
def copyWords (d : Dru) : Nat := d.copyLen.toNat / 4

/-- The writes of `DRU.DISPATCH` (R190). -/
def dispatch (s : State) : State :=
  { s with
    deferPending := false
    dru :=
      { stSnap := s.display
        lineSnap := s.currentLine
        copyLen := s.workShape.length
        copyIdx := 0
        phase := if s.display.renders then .copy else .hook } }

/-- The writes of `DRU.COPY` (R192). -/
def copyStep (s : State) : Except Fault State :=
  if s.dru.copyIdx.toNat < copyWords s.dru then
    match readWord s.wb s.dru.copyIdx.toNat with
    | none => .error .unwrittenRead
    | some w =>
      .ok { s with
        sb := writeWord s.sb s.dru.copyIdx.toNat w
        dru := { s.dru with copyIdx := s.dru.copyIdx + 1 } }
  else .ok (s.toPhase .tail)

/-- The writes of `DRU.TAIL` (R194): the bytes from `4*nw` up to `copy_len`. -/
def tailStep (s : State) : Except Fault State :=
  match copyBytes s.wb (s.dru.copyLen.toNat - 4 * copyWords s.dru) (4 * copyWords s.dru) s.sb with
  | none => .error .unwrittenRead
  | some sb => .ok { s.toPhase .term with sb := sb }

/-- The writes of `DRU.TERM` (R196). -/
def termStep (s : State) : State :=
  { s.toPhase .hook with
    sb := s.sb.write s.dru.copyLen.toNat 0#8
    dmaCount := BitVec.ofNat 17 (s.dru.copyLen.toNat + 1) }

/-- The writes of `DRU.HOOK_REQ` (R199). -/
def hookReqStep (s : State) : State := { s.toPhase .hookWait with hookReq := true }

/-- The writes of `HOOK.ACK` (R200). -/
def hookAckStep (s : State) : State :=
  { s.toPhase (if visible s.t s.dru.lineSnap then .sched else .idle) with hookReq := false }

/-- `DRU.DISPATCH` (R190). -/
def execDruDispatch (s : State) : Host.Outcome State Fault Refusal :=
  agentStep s (whenEnabled (dispatchEnabled s) s (.ok (dispatch s)))

/-- `DRU.COPY` (R192). -/
def execDruCopy (s : State) : Host.Outcome State Fault Refusal :=
  agentStep s (whenEnabled (copyEnabled s) s (copyStep s))

/-- `DRU.TAIL` (R194). -/
def execDruTail (s : State) : Host.Outcome State Fault Refusal :=
  agentStep s (whenEnabled (tailEnabled s) s (tailStep s))

/-- `DRU.TERM` (R196). -/
def execDruTerm (s : State) : Host.Outcome State Fault Refusal :=
  agentStep s (whenEnabled (termEnabled s) s (.ok (termStep s)))

/-- `DRU.HOOK_REQ` (R199). -/
def execDruHookReq (s : State) : Host.Outcome State Fault Refusal :=
  agentStep s (whenEnabled (hookReqEnabled s) s (.ok (hookReqStep s)))

/-- `HOOK.ACK` (R200): ignored while `hook_req = 0`. -/
def execHookAck (s : State) : Host.Outcome State Fault Refusal :=
  agentStep s (whenEnabled s.hookReq s (.ok (hookAckStep s)))

end Sys2Proof.Machine
end

