-- ==== Sys2Proof/Machine/Scheduler.lean ====
section
/-! DEFINITION. The band scheduler and the rasterizer port (spec/44_band_scheduler.md R210 to R215): `DRU.SCHED`, `RAST.WB8`,
`RAST.WB32` and `RAST.RESP`. -/

namespace Sys2Proof.Machine

/-- The request and grant of a band with lines left (R210). -/
def requestLine (s : State) : State :=
  { s.toPhase .renderWait with
    currentBand := { s.currentBand with count := s.currentBand.count - 1 }
    rtok := s.currentBand.rast
    ridx := vindex s.t s.dru.lineSnap }

/-- The writes of `DRU.SCHED` (R210 to R212): one node at most is read (R211). -/
def schedStep (s : State) : Except Fault State :=
  if s.currentBand.count ≠ 0 then
    if s.currentBand.rast = 0 then .error .nullRasterizer else .ok (requestLine s)
  else if s.currentBand.next ≠ 0 then
    (readNode s s.currentBand.next).bind fun node => .ok { s with currentBand := node }
  else .ok (s.toPhase .idle)

/-- The writes of `RAST.WB8` (R214). -/
def wb8Step (index : Half) (data : Byte) (s : State) : Except Fault State :=
  if s.params.bufBytes ≤ index.toNat then .error .wbRange
  else .ok { s with wb := s.wb.write index.toNat data }

/-- The writes of `RAST.WB32` (R214). -/
def wb32Step (windex : BitVec 14) (data : Word) (s : State) : Except Fault State :=
  if s.params.bufBytes ≤ windexByte windex + 3 then .error .wbRange
  else .ok { s with wb := writeWord s.wb windex.toNat data }

/-- The writes of `RAST.RESP` (R215). -/
def respStep (d : Word) (s : State) : Except Fault State :=
  if s.params.bufBytes - 1 < (responseShape d).length.toNat then .error .shapeLength
  else .ok { s.toPhase .idle with workShape := responseShape d }

/-- `DRU.SCHED` (R210). -/
def execDruSched (s : State) : Host.Outcome State Fault Refusal :=
  agentStep s (whenEnabled (schedEnabled s) s (schedStep s))

/-- `RAST.WB8` (R214): ignored while the grant is 0. -/
def execRastWb8 (index : Half) (data : Byte) (s : State) : Host.Outcome State Fault Refusal :=
  agentStep s (whenEnabled (wbGrant s) s (wb8Step index data s))

/-- `RAST.WB32` (R214): ignored while the grant is 0. -/
def execRastWb32 (windex : BitVec 14) (data : Word) (s : State) : Host.Outcome State Fault Refusal :=
  agentStep s (whenEnabled (wbGrant s) s (wb32Step windex data s))

/-- `RAST.RESP` (R215): ignored outside `RENDER_WAIT`. -/
def execRastResp (d : Word) (s : State) : Host.Outcome State Fault Refusal :=
  agentStep s (whenEnabled (wbGrant s) s (respStep d s))

end Sys2Proof.Machine
end

