-- ==== Sys2Proof/Machine/Dma.lean ====
section
/-! DEFINITION. The DMA trigger and the pixel stream: `TICK.SAV` and `TICK.BEAT` (spec/42_dma_trigger.md R170, R172). -/

namespace Sys2Proof.Machine

/-- The stream that SAV arms (R170). -/
def armedStream (s : State) : Dma := ⟨true, s.t.videoLead, 0, s.dmaCount⟩

/-- `SAV(h)` (R170), its checks in textual order. -/
def sav (h : Half) (s : State) : Except Fault State :=
  if h ≠ s.savCmp then .ok s
  else if s.display.displays = false then .ok s
  else if s.dmaCount = 0 then .ok s
  else if s.dma.busy then .error .dmaOverlap
  else if s.t.linePixels.toNat < h.toNat + s.t.videoLead.toNat + s.dmaCount.toNat then .error .dmaPastLine
  else .ok { s with dma := armedStream s }

/-- The stream after its beat at `idx` (R172). -/
def beatStream (d : Dma) : Dma :=
  { d with idx := d.idx + 1, busy := if d.idx.toNat + 1 = d.cnt.toNat then false else d.busy }

/-- `BEAT` (R172). -/
def beat (s : State) : Except Fault State :=
  if s.dma.busy = false then .ok s
  else if s.dma.delay ≠ 0 then .ok { s with dma := { s.dma with delay := s.dma.delay - 1 } }
  else
    match s.sb.read s.dma.idx.toNat with
    | none => .error .unwrittenRead
    | some b => .ok { s with pixLatch := b, dma := beatStream s.dma }

/-- `TICK.SAV` on its own (notes/assumptions/4.md): the sub-event of a TICK with `RUN = 1`, at `h = hcount`. -/
def execTickSav (s : State) : Host.Outcome State Fault Refusal :=
  agentStep s (whenEnabled s.run s (sav s.hcount s.latchH))

/-- `TICK.BEAT` on its own (notes/assumptions/4.md): the sub-event of a TICK with `RUN = 1`. -/
def execTickBeat (s : State) : Host.Outcome State Fault Refusal :=
  agentStep s (whenEnabled s.run s (beat s.latchH))

end Sys2Proof.Machine
end

