-- ==== Sys2Proof/Machine/Vertical.lean ====
section
/-! DEFINITION. The vertical state machine: `TICK.EAV` and its arms (spec/41_vertical_state_machine.md R150 to R158). -/

namespace Sys2Proof.Machine

/-- The STARTING arm (R154). -/
def startingArm (s : State) : Except Fault State :=
  if s.bandHead = 0 then
    .ok { s with currentBand := Band.empty, bandTaken := true, display := .starting }
  else
    (readNode s s.bandHead).bind fun node =>
    .ok { s with currentBand := node, bandTaken := true, display := .starting }

/-- Sub-step 4 of EAV: the first matching arm, in the order of R151. The comparisons with `line - 1` are exact. -/
def eavArm (s : State) : Except Fault State :=
  let l := s.currentLine
  if l = 0 then .ok { s with display := .blank }
  else if l = s.t.vsyncStartLine ∨ l = s.t.vsyncEndLine then .ok { s with vsyncLevel := !s.vsyncLevel }
  else if l.toNat + 1 = s.t.videoStartLine.toNat then startingArm s
  else if l = s.t.videoStartLine then .ok { s with display := .active }
  else if l.toNat + 1 = s.t.videoEndLine.toNat then .ok { s with display := .finishing }
  else .ok s

/-- `(L = T.video_end_line - 1) ? 0 : L + 1` (R157). -/
def nextLine (x : Timing) (l : Half) : Half :=
  if l.toNat + 1 = x.videoEndLine.toNat then 0 else l + 1

/-- EAV (R151). `SAV_RANGE` is checked before the STARTING arm's faults (R263). -/
def eav (s : State) : Except Fault State :=
  let a := savPoint s.t s.workShape.offset
  if (s.t.hend : Int) ≤ a then .error .savRange
  else
    (eavArm { s with deferPending := true, savCmpNext := BitVec.ofInt 16 a, evt := true }).bind fun t =>
    .ok { t with currentLine := nextLine s.t s.currentLine }

/-- Sub-step 4c of TICK: EAV runs at `h = hend` only (R134, R150). -/
def eavAt (h : Half) (s : State) : Except Fault State :=
  if h.toNat = s.t.hend then eav s else .ok s

/-- `TICK.EAV` on its own (notes/assumptions/4.md): the sub-event of a TICK with `RUN = 1` and `hcount = hend`. -/
def execTickEav (s : State) : Host.Outcome State Fault Refusal :=
  agentStep s (whenEnabled s.run s (eavAt s.hcount s.latchH))

end Sys2Proof.Machine
end

