-- ==== Sys2Proof/Machine/Tick.lean ====
section
/-! DEFINITION. The horizontal timing generator: `TICK`, `TICK.ADVANCE` and `TICK.SAMPLE` (spec/40_horizontal_timing.md R130,
R137, R138). -/

namespace Sys2Proof.Machine

/-- `ADVANCE(h)` (R137). -/
def advance (h : Half) (s : State) : State :=
  if h.toNat + 1 = s.t.linePixels.toNat then { s with hcount := 0, savCmp := s.savCmpNext }
  else { s with hcount := h + 1 }

/-- `SAMPLE` (R138): the pins take their values, and the host latches the event pulse it sees on `EVT_O` (R240, R264). -/
def sample (s : State) : State :=
  { s with pins := pinsOf s, hostEvt := s.hostEvt || s.evt }

/-- Sub-step 4 of TICK with `RUN = 1` (R130): SAV, BEAT, EAV and ADVANCE at the position the TICK began at. -/
def generate (s : State) : Except Fault State :=
  (sav s.hcount s.latchH).bind fun s1 =>
  (beat s1).bind fun s2 =>
  (eavAt s.hcount s2).bind fun s3 =>
  .ok (advance s.hcount s3)

/-- Sub-steps 2 to 4 of TICK (R130). A DRAIN that waits for a stream falls through to the generator. -/
def tickEvents (s : State) : Except Fault State :=
  if drainReady s then .ok (drainHalt s)
  else if s.cfgPhase = .quiesce then cfgLoad s
  else if s.run then generate s
  else .ok s

/-- `TICK` (R130): one atomic step. -/
def execTick (s : State) : Host.Outcome State Fault Refusal :=
  agentStep s ((tickEvents s.beginTick).bind fun t => .ok (sample t))

/-- `TICK.ADVANCE` on its own (notes/assumptions/4.md): the sub-event of a TICK with `RUN = 1`. -/
def execTickAdvance (s : State) : Host.Outcome State Fault Refusal :=
  agentStep s (whenEnabled s.run s (.ok (advance s.hcount s.latchH)))

/-- `TICK.SAMPLE` on its own (notes/assumptions/4.md): with `htg_ran` and `h` as the last sub-event left them. -/
def execTickSample (s : State) : Host.Outcome State Fault Refusal :=
  agentStep s (.ok (sample s))

end Sys2Proof.Machine
end

