-- ==== Sys2Proof/Machine/Dispatch.lean ====
section
/-! DEFINITION. The dispatch of an operation to its meaning: one arm a constructor. -/

namespace Sys2Proof.Machine

def exec (i : Instr) (s : State) : Host.Outcome State Fault Refusal :=
  match i with
  | .tick => Sys2Proof.Machine.execTick s
  | .tickCfgDrain => Sys2Proof.Machine.execTickCfgDrain s
  | .tickCfgLoad => Sys2Proof.Machine.execTickCfgLoad s
  | .tickSav => Sys2Proof.Machine.execTickSav s
  | .tickBeat => Sys2Proof.Machine.execTickBeat s
  | .tickEav => Sys2Proof.Machine.execTickEav s
  | .tickAdvance => Sys2Proof.Machine.execTickAdvance s
  | .tickSample => Sys2Proof.Machine.execTickSample s
  | .druDispatch => Sys2Proof.Machine.execDruDispatch s
  | .druCopy => Sys2Proof.Machine.execDruCopy s
  | .druTail => Sys2Proof.Machine.execDruTail s
  | .druTerm => Sys2Proof.Machine.execDruTerm s
  | .druHookReq => Sys2Proof.Machine.execDruHookReq s
  | .druSched => Sys2Proof.Machine.execDruSched s
  | .rastWb8 index data => Sys2Proof.Machine.execRastWb8 index data s
  | .rastWb32 windex data => Sys2Proof.Machine.execRastWb32 windex data s
  | .rastResp d => Sys2Proof.Machine.execRastResp d s
  | .hookAck => Sys2Proof.Machine.execHookAck s
  | .wrCtrl v => Sys2Proof.Machine.execWrCtrl v s
  | .wrStatus v => Sys2Proof.Machine.execWrStatus v s
  | .wrLine v => Sys2Proof.Machine.execWrLine v s
  | .wrBandHead v => Sys2Proof.Machine.execWrBandHead v s
  | .wrTLinePixels v => Sys2Proof.Machine.execWrTLinePixels v s
  | .wrTSyncPixels v => Sys2Proof.Machine.execWrTSyncPixels v s
  | .wrTBackPorchPixels v => Sys2Proof.Machine.execWrTBackPorchPixels v s
  | .wrTVideoLead v => Sys2Proof.Machine.execWrTVideoLead v s
  | .wrTVideoPixels v => Sys2Proof.Machine.execWrTVideoPixels v s
  | .wrTPolarity v => Sys2Proof.Machine.execWrTPolarity v s
  | .wrTVsyncStartLine v => Sys2Proof.Machine.execWrTVsyncStartLine v s
  | .wrTVsyncEndLine v => Sys2Proof.Machine.execWrTVsyncEndLine v s
  | .wrTVideoStartLine v => Sys2Proof.Machine.execWrTVideoStartLine v s
  | .wrTVideoEndLine v => Sys2Proof.Machine.execWrTVideoEndLine v s
  | .wrTClockConfig v => Sys2Proof.Machine.execWrTClockConfig v s
  | .wrCmd v => Sys2Proof.Machine.execWrCmd v s
  | .wrReserved reg v => Sys2Proof.Machine.execWrReserved reg v s
  | .rdCtrl => Sys2Proof.Machine.execRdCtrl s
  | .rdStatus => Sys2Proof.Machine.execRdStatus s
  | .rdLine => Sys2Proof.Machine.execRdLine s
  | .rdBandHead => Sys2Proof.Machine.execRdBandHead s
  | .rdTLinePixels => Sys2Proof.Machine.execRdTLinePixels s
  | .rdTSyncPixels => Sys2Proof.Machine.execRdTSyncPixels s
  | .rdTBackPorchPixels => Sys2Proof.Machine.execRdTBackPorchPixels s
  | .rdTVideoLead => Sys2Proof.Machine.execRdTVideoLead s
  | .rdTVideoPixels => Sys2Proof.Machine.execRdTVideoPixels s
  | .rdTPolarity => Sys2Proof.Machine.execRdTPolarity s
  | .rdTVsyncStartLine => Sys2Proof.Machine.execRdTVsyncStartLine s
  | .rdTVsyncEndLine => Sys2Proof.Machine.execRdTVsyncEndLine s
  | .rdTVideoStartLine => Sys2Proof.Machine.execRdTVideoStartLine s
  | .rdTVideoEndLine => Sys2Proof.Machine.execRdTVideoEndLine s
  | .rdTClockConfig => Sys2Proof.Machine.execRdTClockConfig s
  | .rdCmd => Sys2Proof.Machine.execRdCmd s
  | .rdReserved reg => Sys2Proof.Machine.execRdReserved reg s
  | .reset => Sys2Proof.Machine.execReset s

end Sys2Proof.Machine
end

