-- ==== Sys2Proof/Machine/Fetch.lean ====
section
/-! DEFINITION. Which step comes next: the first entry of the schedule (spec/00_scope.md R6; notes/assumptions/1.md), decoded
where it is a descriptor (spec/30_encoding.md R120 to R122), or a step of the HOST agent's program (spec/45_host_interface.md
R230, R240). The block itself fetches nothing (spec/20_memory.md R76). -/

namespace Sys2Proof.Machine

/-- What the schedule asks of the machine. -/
inductive Action where
  /-- Run the operation `i` in the state `t`. -/
  | run (i : Instr) (t : State)
  /-- Run the register read `i` in the state `t`, and bind its result for the host's program (R124). -/
  | read (i : Instr) (t : State) (name : HostName)
  /-- The step is no operation of the block; this is what comes of it. -/
  | done (o : Host.Outcome State Fault Refusal)

/-- The schedule moves on. -/
def State.popTo (s : State) (rest : List Input) : State := { s with schedule := rest }

/-- Bind a name. -/
def HostVars.bind (vars : HostVars) (name : HostName) (v : Word) : HostVars :=
  match name with
  | .c => { vars with c := v }
  | .s => { vars with s := v }

/-- The value bound to a name. -/
def HostVars.get (vars : HostVars) (name : HostName) : Word :=
  match name with
  | .c => vars.c
  | .s => vars.s

/-- The register read of the host's own program has been made: its result is bound to the name (R124). -/
def bindResult (name : HostName) (o : Host.Outcome State Fault Refusal) : Host.Outcome State Fault Refusal :=
  match o with
  | .next t => .next { t with hostVars := t.hostVars.bind name t.rdData }
  | .fault c => .fault c
  | .refused r => .refused r

/-- A host bus access of any width at any 32-bit address (R230). `done` is the state in which the host has made the access. The
block decodes offsets 0x000 to 0x0FF from `BASE` (R90); an access outside them is not seen by the block (R122). -/
def busAccess (s done : State) (write : Bool) (width : AccessWidth) (addr v : Word) : Action :=
  if addr.toNat < s.params.base ∨ s.params.base + 0x100 ≤ addr.toNat then .done (agentStep s (.ok done))
  else if width ≠ 32 ∨ (addr.toNat - s.params.base) % 4 ≠ 0 then .done (agentStep s (.error .regAccess))
  else
    let reg := BitVec.ofNat 6 ((addr.toNat - s.params.base) / 4)
    .run (if write then wrOf reg v else rdOf reg) done

/-- The HOST agent's next step (R240); with no program left it takes none. -/
def hostStep (s : State) : Action :=
  match s.hostProg with
  | [] => .done (agentStep s (.ok s))
  | .wr reg v :: rest => .run (wrOf reg v) { s with hostProg := rest }
  | .rd reg name :: rest => .read (rdOf reg) { s with hostProg := rest } name
  | .wrBack reg name clear set :: rest =>
    .run (wrOf reg ((s.hostVars.get name &&& ~~~clear) ||| set)) { s with hostProg := rest }
  | .bus write width addr v :: rest => busAccess s { s with hostProg := rest } write width addr v
  | .mw n addr v :: rest =>
    if addr.toNat + n ≤ 2 ^ 32 then
      .done (agentStep s (.ok { s with hostProg := rest, hostMem := hostWrite s.hostMem addr.toNat v n }))
    else .done (.refused .hostMemoryEnd)
  | .poll bit lvl :: rest =>
    .read .rdStatus
      { s with hostProg := if (statusWord s).getLsbD bit = lvl then .sleep bit lvl :: rest else rest } .s
  | .sleep bit lvl :: rest =>
    .done (agentStep s
      (.ok (if s.hostEvt then { s with hostEvt := false, hostProg := .poll bit lvl :: rest } else s)))

/-- A scheduled descriptor (R120 to R122): a misaligned offset raises `REG_ACCESS`, anything else that names no operation is
refused. -/
def opAction (s : State) (descriptor : BitVec 16) (data : BitVec 48) : Action :=
  match decode descriptor data with
  | .ok i => .run i s
  | .error .misalignedOffset => .done (agentStep s (.error .regAccess))
  | .error e => .done (.refused (.undecodable e))

/-- `DRU` (R124): the one DRU step enabled now; if none is, nothing changes. -/
def druAction (s : State) : Action :=
  match druStepEnabled s with
  | some i => .run i s
  | none => .done (agentStep s (.ok s))

/-- With nothing scheduled the DRU and the pixel clock take turns, the DRU passing its turn while no step of it is enabled:
both are weakly fair (R7), and the clock is always enabled (R6; notes/assumptions/1.md). -/
def takeTurn (s : State) : Action :=
  match if s.druTurn then druStepEnabled s else none with
  | some i => .run i { s with druTurn := false }
  | none => .run .tick { s with druTurn := true }

/-- What comes next: the first entry of the schedule, never a later one (spec/20_memory.md R72, R74). -/
def fetch (s : State) : Action :=
  match s.schedule with
  | [] => takeTurn s
  | .op descriptor data :: rest => opAction (s.popTo rest) descriptor data
  | .dru :: rest => druAction (s.popTo rest)
  | .host :: rest => hostStep (s.popTo rest)
  | .call program :: rest =>
    .done (agentStep (s.popTo rest) (.ok { s.popTo rest with hostProg := s.hostProg ++ program }))

/-- The schedule entry of an operation's bits, numbered as spec/opcode_table.json numbers them: the descriptor in bits 15..0,
the data beside it above, every bit above `nbits` 0. -/
def inputOfTableWord (nbits w : Nat) : Input :=
  let bits := w % 2 ^ nbits
  .op (BitVec.ofNat 16 bits) (BitVec.ofNat 48 (bits / 65536))

end Sys2Proof.Machine
end

