-- ==== Sys2Proof/Machine/HostProcs.lean ====
section
/-! DEFINITION. The HOST agent's procedures (spec/45_host_interface.md R240 to R249), each in the host steps of its expansion.
Registers are named by their offset divided by 4 (spec/30_encoding.md R90). A host starts one with `Input.call`. -/

namespace Sys2Proof.Machine

/-- `init` (R241). -/
def procInit : List HostOp := [.wr 0 0x0#32, .wr 3 0x0#32]

/-- `video_on` (R242). -/
def procVideoOn : List HostOp := [.rd 0 .c, .wrBack 0 .c 0x0#32 0x1#32]

/-- `video_off` (R242). -/
def procVideoOff : List HostOp := [.rd 0 .c, .wrBack 0 .c 0x1#32 0x0#32]

/-- `sync_on` (R243). -/
def procSyncOn : List HostOp := [.rd 0 .c, .wrBack 0 .c 0x0#32 0x2#32]

/-- `sync_off` (R243). -/
def procSyncOff : List HostOp := [.rd 0 .c, .wrBack 0 .c 0x2#32 0x0#32]

/-- `configure_timing X` (R244). -/
def procConfigureTiming (x : Timing) : List HostOp :=
  [.poll 9 true,
   .wr 4 (x.linePixels.zeroExtend 32), .wr 5 (x.syncPixels.zeroExtend 32), .wr 6 (x.backPorchPixels.zeroExtend 32),
   .wr 7 (x.videoLead.zeroExtend 32), .wr 8 (x.videoPixels.zeroExtend 32), .wr 9 (polarityWord x),
   .wr 10 (x.vsyncStartLine.zeroExtend 32), .wr 11 (x.vsyncEndLine.zeroExtend 32),
   .wr 12 (x.videoStartLine.zeroExtend 32), .wr 13 (x.videoEndLine.zeroExtend 32), .wr 14 x.clockConfig,
   .wr 16 0x1#32, .poll 9 true]

/-- `configure_band_list head` (R245). -/
def procConfigureBandList (head : Word) : List HostOp := [.wr 3 head]

/-- `in_vblank` (R246): the answer is bit 2 of the value bound to `s`, `inVblankAnswer`. -/
def procInVblank : List HostOp := [.rd 1 .s]

/-- The value `in_vblank` returns once its read has been made (R246). -/
def inVblankAnswer (s : State) : Bool := s.hostVars.s.getLsbD 2

/-- `clear_band_list` (R247). -/
def procClearBandList : List HostOp := [.wr 3 0x0#32, .poll 3 false, .poll 6 true]

/-- `wait_for_vblank` (R248). -/
def procWaitForVblank : List HostOp := [.poll 2 false]

/-- `sync_to_vblank` (R249). -/
def procSyncToVblank : List HostOp := [.poll 2 true, .poll 2 false]

end Sys2Proof.Machine
end

