-- ==== Sys2Proof/Machine/Step.lean ====
section
/-! DEFINITION. One step of the machine: the step the schedule offers, by the meaning of its operation. -/

namespace Sys2Proof.Machine

/-- One atomic step of one agent (spec/00_scope.md R6), on the whole state, in the one total order of the steps. That order
alone orders every step of the block (spec/20_memory.md R72, R74): the step reads what the steps before it wrote, all it writes
is in the state it answers, and State has no store buffer that a fence could drain. -/
def step (s : State) : Host.Outcome State Fault Refusal :=
  match fetch s with
  | .run i t => exec i t
  | .read i t name => bindResult name (exec i t)
  | .done o => o

/-- The operation with these bits, placed first in the schedule (notes/assumptions/2.md). -/
def State.withFetchWord (s : State) (nbits w : Nat) : State :=
  { s with schedule := inputOfTableWord nbits w :: s.schedule }

end Sys2Proof.Machine
end

