-- ==== Sys2Proof/Safety.lean ====
section
/-! DEFINITION. What counts as a safe state, and the invariants the statements are made of (spec/10_state.md R48,
spec/60_exceptions.md R262, spec/43_deferred_render.md R197, spec/42_dma_trigger.md R171). -/

namespace Sys2Proof.Machine

/-- A state with no fault (R43). -/
abbrev State.safe (s : State) : Prop := s.fault = none

/-- The little-endian word host memory holds at `a` (R66). -/
def wordAt (m : Cells) (a : Nat) : Word :=
  wordOf (hostByte m a) (hostByte m (a + 1)) (hostByte m (a + 2)) (hostByte m (a + 3))

/-- The sampled pins while the generator does not run (R136): HSYNC at its idle level. -/
def State.idlePins (s : State) : Pins where
  hsync := if s.syncEn then some (!s.t.hpol) else none
  vsync := if s.syncEn then some s.vsyncLevel else none
  pix := if s.videoEn then some s.pixLatch else none
  evt := false

/-- Run operations one after another, up to the first fault. -/
def execAll : List Instr → State → Host.Outcome State Fault Refusal
  | [], s => .next s
  | i :: is, s =>
    match exec i s with
    | .next t => if t.fault = none then execAll is t else .next t
    | o => o

/-- An endless run: each state is the step after the one before. -/
abbrev isRun (r : Nat → State) : Prop := ∀ k, step (r k) = .next (r (k + 1))

/-- The next step of a state runs the operation `i`. -/
abbrev State.runs (s : State) (i : Instr) : Prop := ∃ t, fetch s = .run i t

/-- The TICK's named sub-events, which "no agent schedules" on its own (R121). -/
def isSubEvent (i : Instr) : Bool :=
  decide (i ∈ [.tickCfgDrain, .tickCfgLoad, .tickSav, .tickBeat, .tickEav, .tickAdvance, .tickSample])

/-- The first `n` cells of a buffer are written (R42). -/
abbrev writtenTo (m : Cells) (n : Nat) : Prop := ∀ j, j < n → (m.read j).isSome

/-- The display state that R48.5 and R159 give the running line `l`. -/
abbrev displayAt (x : Timing) (l : Half) (d : DisplayState) : Prop :=
  if l = 0 then d = .blank ∨ d = .finishing
  else if l.toNat < x.videoStartLine.toNat then d = .blank
  else if l = x.videoStartLine then d = .starting
  else d = .active

/-- The machine's invariant: the canonical form of the three byte stores, R48, and the ranges that R142 relies on. -/
structure State.Inv (s : State) : Prop where
  hostMemory : Memory.wf s.hostMem
  workingBuffer : Buffer.wf s.params.bufBytes s.wb
  scanBuffer : Buffer.wf s.params.bufBytes s.sb
  /-- R48.1. -/
  timing : s.run = true →
    s.t.wf = true ∧ s.hcount.toNat < s.t.linePixels.toNat ∧ s.currentLine.toNat < s.t.videoEndLine.toNat
  /-- R48.2. -/
  streaming : s.dma.busy = true → s.run = true
  /-- R48.3, with the counter that DRAIN has zeroed (R237). -/
  quiesced : s.cfgPhase = .quiesce → s.run = false ∧ s.dma.busy = false ∧ s.hcount = 0
  /-- R48.5. -/
  displayed : s.run = true → displayAt s.t s.currentLine s.display
  /-- R215. -/
  shape : s.workShape.length.toNat < s.params.bufBytes
  /-- R190, R215. -/
  copyLength : s.dru.copyLen.toNat < s.params.bufBytes
  /-- R196. -/
  transferCount : s.dmaCount.toNat ≤ s.params.bufBytes
  /-- R172. -/
  beatIndex : s.dma.busy = true → s.dma.idx.toNat < s.dma.cnt.toNat ∧ s.dma.cnt.toNat ≤ s.params.bufBytes
  /-- R199, R200. -/
  hook : s.hookReq = true ↔ s.dru.phase = .hookWait
  /-- R200, R201: `vindex` is taken of a visible line. -/
  scheduling : s.dru.phase = .sched → visible s.t s.dru.lineSnap = true

/-- What R262 says of the buffers: every cell that a flip or a stream may read is written. -/
structure State.Filled (s : State) : Prop where
  /-- The DRU and the timing generator run only after a CFG_LOAD filled `WB`. -/
  workingBuffer : s.run = true ∨ s.deferPending = true ∨ s.dru.phase ≠ .idle → writtenTo s.wb s.params.bufBytes
  /-- The next stream's cells. -/
  counted : writtenTo s.sb s.dmaCount.toNat
  /-- The running stream's cells. -/
  streamed : s.dma.busy = true → writtenTo s.sb s.dma.cnt.toNat
  /-- The cells a flip in progress has copied. -/
  copied : s.dru.phase = .copy →
    s.dru.copyIdx.toNat ≤ copyWords s.dru ∧ writtenTo s.sb (4 * s.dru.copyIdx.toNat)
  tailed : s.dru.phase = .tail → writtenTo s.sb (4 * copyWords s.dru)
  terminated : s.dru.phase = .term → writtenTo s.sb s.dru.copyLen.toNat

/-- Where a running stream stands in its line (R171, R173): past its trigger point, with room for its last beat, and at the
position that its index says. -/
structure State.InLine (s : State) : Prop where
  armed : s.dma.busy = true → s.savCmp.toNat < s.hcount.toNat
  room : s.dma.busy = true →
    s.dma.delay.toNat + (s.dma.cnt.toNat - s.dma.idx.toNat) + s.hcount.toNat ≤ s.t.linePixels.toNat
  position : s.dma.busy = true →
    s.hcount.toNat + s.dma.delay.toNat = s.savCmp.toNat + s.t.videoLead.toNat + s.dma.idx.toNat

/-- A flip of `n` bytes in progress, begun when `WB` held `w` and `SB` held `b` (R192 to R197): `WB` is as it was, and `SB`
is `b` with the part that is done replaced. -/
structure State.Flipping (s : State) (w b : Cells) (n : Half) : Prop where
  length : s.dru.copyLen = n
  source : s.wb = w
  progress :
    (s.dru.phase = .copy ∧ s.dru.copyIdx.toNat ≤ n.toNat / 4
        ∧ ∀ j, s.sb.read j = if j < 4 * s.dru.copyIdx.toNat then w.read j else b.read j)
      ∨ (s.dru.phase = .tail ∧ ∀ j, s.sb.read j = if j < 4 * (n.toNat / 4) then w.read j else b.read j)
      ∨ (s.dru.phase = .term ∧ ∀ j, s.sb.read j = if j < n.toNat then w.read j else b.read j)

/-- The flip is complete (R197): `SB[0 .. n-1]` is what `WB` held, `SB[n]` is 0x00, the rest is as it was. -/
structure State.Flipped (s : State) (w b : Cells) (n : Half) : Prop where
  phase : s.dru.phase = .hook
  scan : ∀ j, s.sb.read j = if j < n.toNat then w.read j else if j = n.toNat then some 0#8 else b.read j
  count : s.dmaCount.toNat = n.toNat + 1

end Sys2Proof.Machine
end

