-- ==== Sys2Proof/Certificates/Slice0/Obligations.lean ====
section
/-! DEFINITION. The statements for the provers, from the numbered rules of spec/. A next state is written out as a record, so
that an equation says the frame as well: a field not named is unchanged. -/

open Sys2Proof Sys2Proof.Machine

/-! ### Encoding -/

/-- R120, R121, R123: no bit of an operation's encoding is dropped. The layout of the data beside the descriptor is the
model's (notes/assumptions/3.md). -/
def Obligations.DecodeOfEncode : Prop :=
  ∀ i : Instr, i.wellFormed = true → decode (encode i).1 (encode i).2 = .ok i

/-- R123: a descriptor and its data name one operation, and it is encoded by nothing else (the layout of the data:
notes/assumptions/3.md). -/
def Obligations.EncodeOfDecode : Prop :=
  ∀ (op : BitVec 16) (data : BitVec 48) (i : Instr), decode op data = .ok i → i.wellFormed = true ∧ encode i = (op, data)

/-- R121: words of the opcode map, written out, are the operations they stand for (the layout of the data:
notes/assumptions/3.md). -/
def Obligations.TableWordsDecode : Prop :=
  decode 0b0000000000000000#16 0#48 = .ok .tick
    ∧ decode 0b0000000000000101#16 0#48 = .ok .tickEav
    ∧ decode 0b0001000000000001#16 0#48 = .ok .druCopy
    ∧ decode 0b0001000000000101#16 0#48 = .ok .druSched
    ∧ decode 0b0010000000000000#16 0x5A0007#48 = .ok (.rastWb8 7#16 0x5A#8)
    ∧ decode 0b0010000000000001#16 0x443322110001#48 = .ok (.rastWb32 1#14 0x44332211#32)
    ∧ decode 0b0010000000000010#16 0x00080000#48 = .ok (.rastResp 0x00080000#32)
    ∧ decode 0b0011000000001100#16 0x20000000#48 = .ok (.wrBandHead 0x20000000#32)
    ∧ decode 0b0011000000100100#16 3#48 = .ok (.wrTPolarity 3#32)
    ∧ decode 0b0011000000111100#16 1#48 = .ok (.wrReserved 15#6 1#32)
    ∧ decode 0b0100000000000100#16 0#48 = .ok .rdStatus
    ∧ decode 0b0100000001000100#16 0#48 = .ok (.rdReserved 17#6)
    ∧ decode 0b0101000000000000#16 0#48 = .ok .reset

/-- R122: the reserved classes and codes, the offsets outside the block and the misaligned offsets name no operation,
whatever the data. -/
def Obligations.ReservedDescriptorsNameNoOperation : Prop :=
  ∀ (op : BitVec 16) (data : BitVec 48),
    (6 ≤ (opClass op).toNat → decode op data = .error .reservedClass)
    ∧ (opClass op = 0#4 ∧ 7 < (opCode op).toNat → decode op data = .error .reservedCode)
    ∧ (opClass op = 1#4 ∧ 5 < (opCode op).toNat → decode op data = .error .reservedCode)
    ∧ (opClass op = 2#4 ∧ 3 < (opCode op).toNat → decode op data = .error .reservedCode)
    ∧ (opClass op = 5#4 ∧ opCode op ≠ 0#12 → decode op data = .error .reservedCode)
    ∧ ((opClass op = 3#4 ∨ opClass op = 4#4) ∧ 0x100 ≤ (opCode op).toNat → decode op data = .error .outsideBlock)
    ∧ ((opClass op = 3#4 ∨ opClass op = 4#4) ∧ (opCode op).toNat < 0x100 ∧ (opCode op).toNat % 4 ≠ 0 →
        decode op data = .error .misalignedOffset)

/-! ### The step -/

/-- R72, R74: the order of the steps is the only order. A scheduled descriptor that names an operation is a step that runs it,
past its entry of the schedule; so is a word placed by `withFetchWord`; and with nothing scheduled the DRU and the pixel clock take turns, the clock also in the DRU's turn
while no DRU step is enabled (notes/assumptions/1.md, 2.md). -/
def Obligations.StepRunsTheDecodedOperation : Prop :=
  (∀ (s : State) (op : BitVec 16) (data : BitVec 48) (rest : List Input) (i : Instr),
    s.schedule = .op op data :: rest → decode op data = .ok i → step s = exec i { s with schedule := rest })
  ∧ (∀ (s : State) (nbits w : Nat) (i : Instr),
      decodeTableWord nbits w = some i → step (s.withFetchWord nbits w) = exec i s)
  ∧ ∀ s : State, s.schedule = [] →
      (∀ i, s.druTurn = true → druStepEnabled s = some i → step s = exec i { s with druTurn := false })
      ∧ (s.druTurn = false ∨ druStepEnabled s = none → step s = exec .tick { s with druTurn := true })

/-- R122, R230: a scheduled descriptor that names no operation is refused, but for a misaligned offset, which raises
`REG_ACCESS` and has no other effect. The model's own part: the schedule's entry is used up (notes/assumptions/1.md), data bits
that carry no operand are refused (3.md), the refusals hold in a faulted state too (6.md), and so they do for offsets at or
above 0x100, of which R122 says that the block never sees them (17.md). -/
def Obligations.UndecodableStepsStop : Prop :=
  ∀ (s : State) (op : BitVec 16) (data : BitVec 48) (rest : List Input) (e : DecodeError),
    s.schedule = .op op data :: rest → decode op data = .error e →
    (e ≠ .misalignedOffset → step s = .refused (.undecodable e))
    ∧ (e = .misalignedOffset → s.fault = none →
        step s = .next { s with schedule := rest, fault := some .regAccess })

/-- R230: a host bus access in the block's window, of any number of bits, must be a 32-bit access at a multiple of 4; it is
then the register access at that offset. The block does not see an address outside its window (R122). That an access is an entry of the host's program,
and what becomes of it, is notes/assumptions/17.md. -/
def Obligations.BusAccessRule : Prop :=
  ∀ (s : State) (write : Bool) (width : AccessWidth) (addr v : Word) (rest : List Input) (prog : List HostOp),
    s.fault = none → s.schedule = .host :: rest → s.hostProg = .bus write width addr v :: prog →
    (addr.toNat < s.params.base ∨ s.params.base + 0x100 ≤ addr.toNat →
      step s = .next { s with schedule := rest, hostProg := prog })
    ∧ ∀ off : Nat, addr.toNat = s.params.base + off → off < 0x100 →
      (width ≠ 32 ∨ off % 4 ≠ 0 → step s = .next { s with schedule := rest, fault := some .regAccess })
      ∧ (width = 32 ∧ off % 4 = 0 →
          step s = exec (if write then wrOf (BitVec.ofNat 6 (off / 4)) v else rdOf (BitVec.ofNat 6 (off / 4)))
            { s with schedule := rest, hostProg := prog })

/-- R189: the DRU's table. A `DRU` entry of the schedule (notes/assumptions/1.md) takes the one step its phase enables, and
none where there is none. -/
def Obligations.DruEntryTakesTheEnabledStep : Prop :=
  ∀ (s : State) (rest : List Input), s.fault = none → s.schedule = .dru :: rest →
    (s.dru.phase = .idle ∧ s.deferPending = true → step s = exec .druDispatch { s with schedule := rest })
    ∧ (s.dru.phase = .copy ∧ s.dma.busy = false → step s = exec .druCopy { s with schedule := rest })
    ∧ (s.dru.phase = .tail ∧ s.dma.busy = false → step s = exec .druTail { s with schedule := rest })
    ∧ (s.dru.phase = .term ∧ s.dma.busy = false → step s = exec .druTerm { s with schedule := rest })
    ∧ (s.dru.phase = .hook → step s = exec .druHookReq { s with schedule := rest })
    ∧ (s.dru.phase = .sched → step s = exec .druSched { s with schedule := rest })
    ∧ ((s.dru.phase = .idle ∧ s.deferPending = false) ∨ s.dru.phase = .hookWait ∨ s.dru.phase = .renderWait
        ∨ (s.dma.busy = true ∧ (s.dru.phase = .copy ∨ s.dru.phase = .tail ∨ s.dru.phase = .term)) →
        step s = .next { s with schedule := rest })

/-- R189: at most one DRU step is enabled. Of the six, at most one changes an unfaulted state (that one not enabled changes
nothing is notes/assumptions/5.md). -/
def Obligations.AtMostOneDruStepIsEnabled : Prop :=
  ∀ (s : State) (i j : Instr), s.fault = none →
    i ∈ [Instr.druDispatch, .druCopy, .druTail, .druTerm, .druHookReq, .druSched] →
    j ∈ [Instr.druDispatch, .druCopy, .druTail, .druTerm, .druHookReq, .druSched] →
    exec i s ≠ .next s → exec j s ≠ .next s → i = j

/-- R7: fairness. In every endless run `CLK` steps again and again, and a DRU step that stays enabled is taken; and every step
uses up one entry of the schedule (notes/assumptions/1.md), so that nothing but a schedule bounds what the agents do between two
TICKs. -/
def Obligations.EveryRunIsFair : Prop :=
  (∀ s t : State, step s = .next t → t.schedule = s.schedule.tail)
  ∧ ∀ r : Nat → State, isRun r →
      (∀ k, ∃ m, k ≤ m ∧ (r m).runs .tick)
      ∧ ∀ (k : Nat) (i : Instr), (∀ m, k ≤ m → druStepEnabled (r m) = some i) → ∃ m, k ≤ m ∧ (r m).runs i

/-! ### Faults and reset -/

/-- R260.1: a step that raises a fault writes nothing but `fault` (a sub-event alone too: notes/assumptions/4.md). -/
def Obligations.RaisingWritesOnlyTheFault : Prop :=
  ∀ (i : Instr) (s t : State) (c : Fault), exec i s = .next t → t.fault = some c → t = { s with fault := some c }

/-- R260.2: in a faulted state no agent but RST takes a step; the other operations stop the machine with the fault
(notes/assumptions/6.md; a sub-event alone too: 4.md). -/
def Obligations.FaultedMachineTakesNoStep : Prop :=
  ∀ (s : State) (c : Fault), s.fault = some c →
    (∀ i : Instr, i ≠ .reset → exec i s = .fault c)
    ∧ ∀ t : State, step s = .next t → t.fault = none ∧ ∃ rest, s.schedule = .op 0x5000#16 0#48 :: rest

/-- Every operation answers a next state in every unfaulted state. The next state may be one that raises a fault (R260;
notes/assumptions/6.md) or one that changes nothing, where the operation is not enabled (5.md; a sub-event alone: 4.md); the
statements below say which.
No operation writes host memory, which R10 leaves to the host's `MemWrite` and R290 keeps. That none writes the
parameters (12.md), the schedule and its turn (1.md), or the host's program and the names it has bound (17.md), RESET included,
is the model's own. -/
def Obligations.EveryOperationAnswersANextState : Prop :=
  ∀ (i : Instr) (s : State), s.fault = none →
    ∃ t, exec i s = .next t ∧ t.hostMem = s.hostMem ∧ t.params = s.params ∧ t.schedule = s.schedule
      ∧ t.druTurn = s.druTurn ∧ t.hostProg = s.hostProg ∧ t.hostVars = s.hostVars

/-- R291 (which the spec derives from R22 to R43): the state after reset, its pins and its two status registers. The pins of
the reset state are notes/assumptions/7.md. -/
def Obligations.ResetStateValues : Prop :=
  let s := State.reset
  s.videoEn = false ∧ s.syncEn = false ∧ s.sh = Timing.zero ∧ s.t = Timing.zero ∧ s.run = false ∧ s.cfgPhase = .idle
    ∧ s.hcount = 0#16 ∧ s.savCmp = 0#16 ∧ s.savCmpNext = 0#16 ∧ s.display = .blank ∧ s.currentLine = 0#16
    ∧ s.vsyncLevel = false ∧ s.bandHead = 0#32 ∧ s.bandTaken = false ∧ s.currentBand = ⟨0#32, 0#32, 0#32⟩
    ∧ s.deferPending = false ∧ s.dru = ⟨.idle, .blank, 0#16, 0#16, 0#16⟩ ∧ s.hookReq = false ∧ s.rtok = 0#32
    ∧ s.ridx = 0#16 ∧ s.workShape = ⟨0#16, 0#16⟩ ∧ s.dmaCount = 0#17 ∧ s.dma = ⟨false, 0#16, 0#17, 0#17⟩
    ∧ s.pixLatch = 0#8 ∧ s.evt = false ∧ s.clkCfgO = 0#32 ∧ (∀ j, s.wb.read j = none) ∧ (∀ j, s.sb.read j = none)
    ∧ s.fault = none
    ∧ s.pins = ⟨none, none, none, false⟩ ∧ clkCfgPin s = 0#32 ∧ hookReqPin s = false ∧ rastReqPin s = none
    ∧ wbGntPin s = false ∧ statusWord s = 0#32 ∧ lineWord s = 0#32

/-- R290: RESET is a step of every state, the faulted ones too: every element goes to its reset value, host memory and the
event latch stay, and the other side of a dropped handshake is ignored. The model's own part: the sampled pins take their reset
values at once (notes/assumptions/7.md), the TICK's locals `htg_ran` and `h` go to 0 (8.md), and the parameters (12.md), the
schedule and its turn (1.md), the value last read (9.md), the host's program and its names (17.md) stay. -/
def Obligations.ResetStep : Prop :=
  ∀ s : State, ∃ t, exec .reset s = .next t
    ∧ t = { State.reset with
        params := s.params, schedule := s.schedule, druTurn := s.druTurn, hostMem := s.hostMem, hostEvt := s.hostEvt,
        rdData := s.rdData, hostVars := s.hostVars, hostProg := s.hostProg }
    ∧ (∀ index data, exec (.rastWb8 index data) t = .next t)
    ∧ (∀ windex data, exec (.rastWb32 windex data) t = .next t)
    ∧ (∀ d, exec (.rastResp d) t = .next t)
    ∧ exec .hookAck t = .next t
    ∧ ∀ rest, step { t with schedule := .dru :: rest } = .next { t with schedule := rest }

/-! ### The TICK -/

/-- R130: an idle TICK changes `evt` and samples the pins; R136: HSYNC is at its idle level. R237: a TICK in DRAIN with no
stream busy halts the generator and clears its counter in one step. (`htg_ran` is the TICK's own local,
notes/assumptions/8.md.) -/
def Obligations.IdleAndDrainTicks : Prop :=
  (∀ s : State, s.fault = none → s.run = false → s.cfgPhase = .idle →
    exec .tick s = .next { s with evt := false, htgRan := false, pins := s.idlePins })
  ∧ ∀ s : State, s.fault = none → s.cfgPhase = .drain → s.dma.busy = false →
      exec .tick s = .next { s with
        run := false, hcount := 0#16, cfgPhase := .quiesce, evt := false, htgRan := false, pins := s.idlePins }

/-- R238, R130: a TICK in QUIESCE waits for deferred work, and then faults if `SH` fails `WF` (`htg_ran`:
notes/assumptions/8.md). -/
def Obligations.QuiesceTickWaitsOrFaults : Prop :=
  ∀ s : State, s.fault = none → s.cfgPhase = .quiesce →
    (s.deferPending = true ∨ s.dru.phase ≠ .idle →
      exec .tick s = .next { s with evt := false, htgRan := false, pins := s.idlePins })
    ∧ (s.deferPending = false → s.dru.phase = .idle → s.sh.wf = false →
      exec .tick s = .next { s with fault := some .undefTiming })

/-- R238, R130: the TICK that performs CFG_LOAD, with the pins it samples (R138) and the pulse the host latches (R240;
notes/assumptions/10.md; `htg_ran`: 8.md). -/
def Obligations.QuiesceTickLoads : Prop :=
  ∀ s : State, s.fault = none → s.cfgPhase = .quiesce → s.deferPending = false → s.dru.phase = .idle → s.sh.wf = true →
    ∃ (a : Half) (wb sb : Cells),
      exec .tick s = .next { s with
        t := s.sh, clkCfgO := s.sh.clockConfig, savCmp := a, savCmpNext := a, workShape := ⟨0#16, 0#16⟩,
        dmaCount := 0#17, wb := wb, sb := sb, currentLine := 0#16, display := .blank, vsyncLevel := !s.sh.vpol,
        run := true, syncEn := true, cfgPhase := .idle, evt := true, htgRan := false, hostEvt := true,
        pins := ⟨some (!s.sh.hpol), some (!s.sh.vpol), if s.videoEn then some s.pixLatch else none, true⟩ }
      ∧ a.toNat + s.sh.videoLead.toNat = s.sh.syncPixels.toNat + s.sh.backPorchPixels.toNat
      ∧ (∀ j, wb.read j = if j < s.params.bufBytes then some (byteOf s.params.sentinel (j % 4)) else s.wb.read j)
      ∧ ∀ j, sb.read j = if s.sh.videoPixels.toNat ≤ j ∧ j < s.params.bufBytes then some 0#8 else s.sb.read j

/-- R130, R137: a running TICK between the events of its line only advances the counter and samples the pins, HSYNC being
active inside the sync pulse (R132). The TICK's locals in State: notes/assumptions/8.md. A counter that does not fit its field, in
states no run reaches: 13.md. -/
def Obligations.RunningTickBetweenEvents : Prop :=
  ∀ s : State, s.fault = none → s.run = true → s.cfgPhase = .idle → s.dma.busy = false →
    s.hcount ≠ s.savCmp → s.hcount.toNat ≠ s.t.syncPixels.toNat + s.t.backPorchPixels.toNat + s.t.videoPixels.toNat →
    exec .tick s = .next { s with
      evt := false, htgRan := true, tickH := s.hcount
      hcount := if s.hcount.toNat + 1 = s.t.linePixels.toNat then 0#16 else s.hcount + 1#16
      savCmp := if s.hcount.toNat + 1 = s.t.linePixels.toNat then s.savCmpNext else s.savCmp
      pins :=
        { hsync :=
            if s.syncEn then
              some (if s.hcount.toNat < s.t.syncPixels.toNat then s.t.hpol else !s.t.hpol)
            else none
          vsync := if s.syncEn then some s.vsyncLevel else none
          pix := if s.videoEn then some s.pixLatch else none
          evt := false } }

/-- R130, R131, R134, R137, R139: what every running TICK does to the horizontal position, the line counter, the event
pulse, the deferred request and the host's event latch (notes/assumptions/10.md), whatever else it does, in the states of R48. The TICK's locals in State: notes/assumptions/8.md. -/
def Obligations.RunningTickMovesTheBeam : Prop :=
  ∀ s t : State, s.Inv → s.run = true → (s.cfgPhase = .drain → s.dma.busy = true) → exec .tick s = .next t → t.fault = none →
    t.run = true ∧ t.htgRan = true ∧ t.tickH = s.hcount
    ∧ t.hcount.toNat = (s.hcount.toNat + 1) % s.t.linePixels.toNat
    ∧ t.savCmp = (if s.hcount.toNat + 1 = s.t.linePixels.toNat then t.savCmpNext else s.savCmp)
    ∧ (t.evt = true ↔ s.hcount.toNat = s.t.hend)
    ∧ t.currentLine.toNat =
        (if s.hcount.toNat = s.t.hend then (s.currentLine.toNat + 1) % s.t.videoEndLine.toNat else s.currentLine.toNat)
    ∧ (t.deferPending = true ↔ s.deferPending = true ∨ s.hcount.toNat = s.t.hend)
    ∧ (t.hostEvt = true ↔ s.hostEvt = true ∨ s.hcount.toNat = s.t.hend)

/-- R130: a TICK is its named sub-events in order, and a fault of one of them is a fault of the whole TICK, with no other
effect. (That a sub-event alone acts as this part of a TICK is notes/assumptions/4.md.) -/
def Obligations.TickIsItsSubEvents : Prop :=
  ∀ s : State, s.fault = none →
    let s0 := { s with evt := false, htgRan := false }
    let whole (events : List Instr) (o : Host.Outcome State Fault Refusal) : Prop :=
      ∃ t, execAll events s0 = .next t ∧ o = .next (if t.fault = none then t else { s with fault := t.fault })
    (s.cfgPhase = .drain ∧ s.dma.busy = false → whole [.tickCfgDrain, .tickSample] (exec .tick s))
    ∧ (s.cfgPhase = .quiesce → whole [.tickCfgLoad, .tickSample] (exec .tick s))
    ∧ (s.run = true ∧ (s.cfgPhase = .idle ∨ (s.cfgPhase = .drain ∧ s.dma.busy = true)) →
        whole [.tickSav, .tickBeat, .tickEav, .tickAdvance, .tickSample] (exec .tick s))

/-- R237, R238: the two configuration sub-events on their own (notes/assumptions/4.md): the same writes, without the TICK
around them, and nothing outside their phase. -/
def Obligations.ConfigurationSubEvents : Prop :=
  ∀ s : State, s.fault = none →
    exec .tickCfgDrain s = .next (if s.cfgPhase = .drain ∧ s.dma.busy = false then
      { s with run := false, hcount := 0#16, cfgPhase := .quiesce } else s)
    ∧ (s.cfgPhase ≠ .quiesce ∨ s.deferPending = true ∨ s.dru.phase ≠ .idle → exec .tickCfgLoad s = .next s)
    ∧ (s.cfgPhase = .quiesce → s.deferPending = false → s.dru.phase = .idle →
        (s.sh.wf = false → exec .tickCfgLoad s = .next { s with fault := some .undefTiming })
        ∧ (s.sh.wf = true → ∃ (a : Half) (wb sb : Cells),
            exec .tickCfgLoad s = .next { s with
              t := s.sh, clkCfgO := s.sh.clockConfig, savCmp := a, savCmpNext := a, workShape := ⟨0#16, 0#16⟩,
              dmaCount := 0#17, wb := wb, sb := sb, currentLine := 0#16, display := .blank, vsyncLevel := !s.sh.vpol,
              run := true, syncEn := true, cfgPhase := .idle, evt := true }
            ∧ a.toNat + s.sh.videoLead.toNat = s.sh.syncPixels.toNat + s.sh.backPorchPixels.toNat
            ∧ (∀ j, wb.read j = if j < s.params.bufBytes then some (byteOf s.params.sentinel (j % 4)) else s.wb.read j)
            ∧ ∀ j, sb.read j = if s.sh.videoPixels.toNat ≤ j ∧ j < s.params.bufBytes then some 0#8 else s.sb.read j))

/-- R239: what `WF` implies of a timing (the first three bounds are the spec's own inference, the rest its predicate). -/
def Obligations.WellFormedTimingBounds : Prop :=
  ∀ x : Timing, x.wf = true →
    4 ≤ x.linePixels.toNat ∧ 4 ≤ x.videoStartLine.toNat ∧ 6 ≤ x.videoEndLine.toNat
    ∧ 1 ≤ x.syncPixels.toNat ∧ x.syncPixels.toNat < x.hstart ∧ x.hstart < x.hend ∧ x.hend + 1 ≤ x.linePixels.toNat
    ∧ x.videoLead.toNat ≤ x.hstart
    ∧ x.vsyncStartLine ≠ 0#16 ∧ x.vsyncStartLine.toNat < x.vsyncEndLine.toNat
    ∧ x.vsyncEndLine.toNat + 1 < x.videoStartLine.toNat ∧ x.videoStartLine.toNat + 1 < x.videoEndLine.toNat

/-- R170: SAV, each of its five outcomes, in a TICK with the generator running; the sub-event alone does nothing with
`RUN = 0` (notes/assumptions/4.md). -/
def Obligations.SavRule : Prop :=
  ∀ s : State, s.fault = none →
    (s.run = false → exec .tickSav s = .next s)
    ∧ (s.run = true →
      (s.hcount ≠ s.savCmp ∨ s.display.bits.getLsbD 1 = false ∨ s.dmaCount = 0#17 →
        exec .tickSav s = .next { s with htgRan := true, tickH := s.hcount })
      ∧ (s.hcount = s.savCmp → s.display.bits.getLsbD 1 = true → s.dmaCount ≠ 0#17 →
        (s.dma.busy = true → exec .tickSav s = .next { s with fault := some .dmaOverlap })
        ∧ (s.dma.busy = false → s.t.linePixels.toNat < s.hcount.toNat + s.t.videoLead.toNat + s.dmaCount.toNat →
            exec .tickSav s = .next { s with fault := some .dmaPastLine })
        ∧ (s.dma.busy = false → s.hcount.toNat + s.t.videoLead.toNat + s.dmaCount.toNat ≤ s.t.linePixels.toNat →
            exec .tickSav s = .next { s with
              htgRan := true, tickH := s.hcount
              dma := { busy := true, delay := s.t.videoLead, idx := 0#17, cnt := s.dmaCount } })))

/-- R172: BEAT, each of its outcomes, in a TICK with the generator running (alone: notes/assumptions/4.md). In
states no run reaches, an index that does not fit is 13.md, and a cell past the buffer 14.md. -/
def Obligations.BeatRule : Prop :=
  ∀ s : State, s.fault = none →
    (s.run = false → exec .tickBeat s = .next s)
    ∧ (s.run = true →
      (s.dma.busy = false → exec .tickBeat s = .next { s with htgRan := true, tickH := s.hcount })
      ∧ (s.dma.busy = true → s.dma.delay ≠ 0#16 →
          exec .tickBeat s = .next { s with
            htgRan := true, tickH := s.hcount, dma := { s.dma with delay := s.dma.delay - 1#16 } })
      ∧ (s.dma.busy = true → s.dma.delay = 0#16 →
          (s.sb.read s.dma.idx.toNat = none → exec .tickBeat s = .next { s with fault := some .unwrittenRead })
          ∧ ∀ b, s.sb.read s.dma.idx.toNat = some b →
              exec .tickBeat s = .next { s with
                htgRan := true, tickH := s.hcount, pixLatch := b
                dma := { s.dma with
                  busy := if s.dma.idx.toNat + 1 = s.dma.cnt.toNat then false else true
                  idx := s.dma.idx + 1#17 } }))

/-- R151 to R153 and R155 to R158: EAV at every line but the STARTING one, under `WF`, as the sub-event alone
(notes/assumptions/4.md). A line that does not fit its field, in states no run reaches: 13.md. -/
def Obligations.EavRule : Prop :=
  ∀ s : State, s.fault = none → s.run = true → s.t.wf = true → s.hcount.toNat = s.t.hend →
    s.currentLine.toNat + 1 ≠ s.t.videoStartLine.toNat →
    s.t.hstart + s.workShape.offset.toNat < s.t.hend + s.t.videoLead.toNat →
    ∃ a : Half, a.toNat + s.t.videoLead.toNat = s.t.hstart + s.workShape.offset.toNat
      ∧ exec .tickEav s = .next { s with
          htgRan := true, tickH := s.hcount, deferPending := true, savCmpNext := a, evt := true
          display :=
            if s.currentLine = 0#16 then .blank
            else if s.currentLine = s.t.videoStartLine then .active
            else if s.currentLine.toNat + 1 = s.t.videoEndLine.toNat then .finishing
            else s.display
          vsyncLevel :=
            if s.currentLine = s.t.vsyncStartLine ∨ s.currentLine = s.t.vsyncEndLine then !s.vsyncLevel
            else s.vsyncLevel
          currentLine :=
            if s.currentLine.toNat + 1 = s.t.videoEndLine.toNat then 0#16 else s.currentLine + 1#16 }

/-- R154, with R66, R70 and R71: EAV at the STARTING line, under `WF`: the band snapshot and its two faults, as the sub-event
alone (notes/assumptions/4.md). That a word of the node at or past 2 ^ 32 is not mapped is 15.md (DEDUCED). -/
def Obligations.EavStartingRule : Prop :=
  ∀ s : State, s.fault = none → s.run = true → s.t.wf = true → s.hcount.toNat = s.t.hend →
    s.currentLine.toNat + 1 = s.t.videoStartLine.toNat →
    s.t.hstart + s.workShape.offset.toNat < s.t.hend + s.t.videoLead.toNat →
    (s.bandHead.toNat % 4 ≠ 0 → exec .tickEav s = .next { s with fault := some .bandMisaligned })
    ∧ (s.bandHead ≠ 0#32 → s.bandHead.toNat % 4 = 0 →
        (∃ k, k ∈ [0, 4, 8] ∧ isMapped s.params (s.bandHead.toNat + k) = false) →
        exec .tickEav s = .next { s with fault := some .busError })
    ∧ (s.bandHead = 0#32 ∨ (s.bandHead.toNat % 4 = 0
          ∧ ∀ k, k ∈ [0, 4, 8] → isMapped s.params (s.bandHead.toNat + k) = true) →
        ∃ a : Half, a.toNat + s.t.videoLead.toNat = s.t.hstart + s.workShape.offset.toNat
          ∧ exec .tickEav s = .next { s with
              htgRan := true, tickH := s.hcount, deferPending := true, savCmpNext := a, evt := true
              display := .starting, bandTaken := true, currentLine := s.currentLine + 1#16
              currentBand :=
                if s.bandHead = 0#32 then ⟨0#32, 0#32, 0#32⟩
                else
                  ⟨wordAt s.hostMem s.bandHead.toNat, wordAt s.hostMem (s.bandHead.toNat + 4),
                    wordAt s.hostMem (s.bandHead.toNat + 8)⟩ })

/-- R150, R151, R263: EAV runs at `h = hend` only, and `SAV_RANGE` comes before anything else it does (the sub-event alone:
notes/assumptions/4.md). -/
def Obligations.EavGuards : Prop :=
  ∀ s : State, s.fault = none →
    (s.run = false → exec .tickEav s = .next s)
    ∧ (s.run = true → s.hcount.toNat ≠ s.t.hend → exec .tickEav s = .next { s with htgRan := true, tickH := s.hcount })
    ∧ (s.run = true → s.hcount.toNat = s.t.hend →
        s.t.hend + s.t.videoLead.toNat ≤ s.t.hstart + s.workShape.offset.toNat →
        exec .tickEav s = .next { s with fault := some .savRange })

/-- R137: ADVANCE. R138, R44, R132: SAMPLE; R240: the host latches the pulse (notes/assumptions/10.md). Both as the sub-event
alone (4.md), with the TICK's locals in State (8.md). A counter that does not fit, in states no run reaches: 13.md. -/
def Obligations.AdvanceAndSampleRules : Prop :=
  ∀ s : State, s.fault = none →
    (s.run = false → exec .tickAdvance s = .next s)
    ∧ (s.run = true → s.hcount.toNat + 1 = s.t.linePixels.toNat →
        exec .tickAdvance s = .next { s with htgRan := true, tickH := s.hcount, hcount := 0#16, savCmp := s.savCmpNext })
    ∧ (s.run = true → s.hcount.toNat + 1 ≠ s.t.linePixels.toNat →
        exec .tickAdvance s = .next { s with htgRan := true, tickH := s.hcount, hcount := s.hcount + 1#16 })
    ∧ ∃ p : Pins,
        exec .tickSample s = .next { s with pins := p, hostEvt := s.hostEvt || s.evt }
        ∧ p.hsync =
            (if s.syncEn then
              some (if s.htgRan ∧ s.tickH.toNat < s.t.syncPixels.toNat then s.t.hpol else !s.t.hpol)
            else none)
        ∧ p.vsync = (if s.syncEn then some s.vsyncLevel else none)
        ∧ p.pix = (if s.videoEn then some s.pixLatch else none)
        ∧ p.evt = s.evt

/-! ### The deferred render unit -/

/-- R190: DISPATCH. -/
def Obligations.DispatchRule : Prop :=
  ∀ s : State, s.fault = none → s.dru.phase = .idle → s.deferPending = true →
    exec .druDispatch s = .next { s with
      deferPending := false
      dru :=
        { phase := if s.display.bits.getLsbD 0 then .copy else .hook
          stSnap := s.display, lineSnap := s.currentLine, copyLen := s.workShape.length, copyIdx := 0#16 } }

/-- R192: COPY moves one word, or faults, or ends. In states no run reaches, a cell past the
buffer is a cell like another (notes/assumptions/14.md). -/
def Obligations.CopyRule : Prop :=
  ∀ s : State, s.fault = none → s.dru.phase = .copy → s.dma.busy = false →
    (s.dru.copyLen.toNat / 4 ≤ s.dru.copyIdx.toNat →
      exec .druCopy s = .next { s with dru := { s.dru with phase := .tail } })
    ∧ (s.dru.copyIdx.toNat < s.dru.copyLen.toNat / 4 →
        ((∃ j, j / 4 = s.dru.copyIdx.toNat ∧ s.wb.read j = none) →
          exec .druCopy s = .next { s with fault := some .unwrittenRead })
        ∧ ((∀ j, j / 4 = s.dru.copyIdx.toNat → s.wb.read j ≠ none) →
            ∃ sb : Cells,
              exec .druCopy s = .next { s with sb := sb, dru := { s.dru with copyIdx := s.dru.copyIdx + 1#16 } }
              ∧ ∀ j, sb.read j = if j / 4 = s.dru.copyIdx.toNat then s.wb.read j else s.sb.read j))

/-- R194: TAIL moves the bytes a whole word copy leaves, or faults. In states no run reaches, a cell past the
buffer is a cell like another (notes/assumptions/14.md). -/
def Obligations.TailRule : Prop :=
  ∀ s : State, s.fault = none → s.dru.phase = .tail → s.dma.busy = false →
    ((∃ j, 4 * (s.dru.copyLen.toNat / 4) ≤ j ∧ j < s.dru.copyLen.toNat ∧ s.wb.read j = none) →
      exec .druTail s = .next { s with fault := some .unwrittenRead })
    ∧ ((∀ j, 4 * (s.dru.copyLen.toNat / 4) ≤ j → j < s.dru.copyLen.toNat → s.wb.read j ≠ none) →
        ∃ sb : Cells,
          exec .druTail s = .next { s with sb := sb, dru := { s.dru with phase := .term } }
          ∧ ∀ j, sb.read j =
              if 4 * (s.dru.copyLen.toNat / 4) ≤ j ∧ j < s.dru.copyLen.toNat then s.wb.read j else s.sb.read j)

/-- R196: TERM appends the blanking terminator and programs the transfer count. In states no run reaches, a cell past the
buffer is a cell like another (notes/assumptions/14.md). -/
def Obligations.TermRule : Prop :=
  ∀ s : State, s.fault = none → s.dru.phase = .term → s.dma.busy = false →
    ∃ (sb : Cells) (c : Count),
      exec .druTerm s = .next { s with sb := sb, dmaCount := c, dru := { s.dru with phase := .hook } }
      ∧ c.toNat = s.dru.copyLen.toNat + 1
      ∧ ∀ j, sb.read j = if j = s.dru.copyLen.toNat then some 0#8 else s.sb.read j

/-- R199, R200, R201: the hook's request and acknowledge, and the visibility test. -/
def Obligations.HookHandshakeRule : Prop :=
  ∀ s : State, s.fault = none →
    (s.dru.phase = .hook →
      exec .druHookReq s = .next { s with hookReq := true, dru := { s.dru with phase := .hookWait } })
    ∧ (s.hookReq = false → exec .hookAck s = .next s)
    ∧ (s.hookReq = true →
        exec .hookAck s = .next { s with
          hookReq := false
          dru := { s.dru with
            phase :=
              if s.t.videoStartLine.toNat ≤ s.dru.lineSnap.toNat ∧ s.dru.lineSnap.toNat < s.t.videoEndLine.toNat
              then .sched else .idle } })

/-- R210 to R212, with R66, R70 and R201: SCHED, each of its outcomes. That a word of the node at or past 2 ^ 32 is not mapped is
notes/assumptions/15.md (DEDUCED); an index of a line that is not visible, in states no run reaches, is 13.md. -/
def Obligations.SchedRule : Prop :=
  ∀ s : State, s.fault = none → s.dru.phase = .sched →
    (s.currentBand.count ≠ 0#32 → s.currentBand.rast = 0#32 →
      exec .druSched s = .next { s with fault := some .nullRasterizer })
    ∧ (s.currentBand.count ≠ 0#32 → s.currentBand.rast ≠ 0#32 →
        exec .druSched s = .next { s with
          currentBand := { s.currentBand with count := s.currentBand.count - 1#32 }
          rtok := s.currentBand.rast, ridx := s.dru.lineSnap - s.t.videoStartLine
          dru := { s.dru with phase := .renderWait } })
    ∧ (s.currentBand.count = 0#32 → s.currentBand.next = 0#32 →
        exec .druSched s = .next { s with dru := { s.dru with phase := .idle } })
    ∧ (s.currentBand.count = 0#32 → s.currentBand.next.toNat % 4 ≠ 0 →
        exec .druSched s = .next { s with fault := some .bandMisaligned })
    ∧ (s.currentBand.count = 0#32 → s.currentBand.next ≠ 0#32 → s.currentBand.next.toNat % 4 = 0 →
        ((∃ k, k ∈ [0, 4, 8] ∧ isMapped s.params (s.currentBand.next.toNat + k) = false) →
          exec .druSched s = .next { s with fault := some .busError })
        ∧ ((∀ k, k ∈ [0, 4, 8] → isMapped s.params (s.currentBand.next.toNat + k) = true) →
          exec .druSched s = .next { s with
            currentBand :=
              ⟨wordAt s.hostMem s.currentBand.next.toNat, wordAt s.hostMem (s.currentBand.next.toNat + 4),
                wordAt s.hostMem (s.currentBand.next.toNat + 8)⟩ }))

/-! ### The rasterizer port -/

/-- R214, R102, R78: the rasterizer's writes: ignored without the grant, checked against `BUF_BYTES`, little-endian. -/
def Obligations.RasterizerWriteRule : Prop :=
  ∀ s : State, s.fault = none →
    (s.dru.phase ≠ .renderWait →
      (∀ index data, exec (.rastWb8 index data) s = .next s) ∧ ∀ windex data, exec (.rastWb32 windex data) s = .next s)
    ∧ (s.dru.phase = .renderWait →
        (∀ (index : Half) (data : Byte),
          (s.params.bufBytes ≤ index.toNat → exec (.rastWb8 index data) s = .next { s with fault := some .wbRange })
          ∧ (index.toNat < s.params.bufBytes →
              ∃ wb : Cells, exec (.rastWb8 index data) s = .next { s with wb := wb }
                ∧ ∀ j, wb.read j = if j = index.toNat then some data else s.wb.read j))
        ∧ ∀ (windex : BitVec 14) (data : Word),
          (s.params.bufBytes ≤ 4 * windex.toNat + 3 →
            exec (.rastWb32 windex data) s = .next { s with fault := some .wbRange })
          ∧ (4 * windex.toNat + 3 < s.params.bufBytes →
              ∃ wb : Cells, exec (.rastWb32 windex data) s = .next { s with wb := wb }
                ∧ ∀ j, wb.read j =
                    if j / 4 = windex.toNat then some (data.extractLsb' (8 * (j % 4)) 8) else s.wb.read j))

/-- R215, R101: the rasterizer's response. -/
def Obligations.RasterizerResponseRule : Prop :=
  ∀ (s : State) (d : Word), s.fault = none →
    (s.dru.phase ≠ .renderWait → exec (.rastResp d) s = .next s)
    ∧ (s.dru.phase = .renderWait →
        (s.params.bufBytes - 1 < (d.extractLsb' 16 16).toNat →
          exec (.rastResp d) s = .next { s with fault := some .shapeLength })
        ∧ ((d.extractLsb' 16 16).toNat ≤ s.params.bufBytes - 1 →
          exec (.rastResp d) s = .next { s with
            workShape := { offset := d.extractLsb' 0 16, length := d.extractLsb' 16 16 }
            dru := { s.dru with phase := .idle } }))

/-! ### Host registers -/

/-- R231, R91: a CTRL write. -/
def Obligations.WriteCtrlRule : Prop :=
  ∀ (s : State) (v : Word), s.fault = none →
    exec (.wrCtrl v) s = .next (if s.cfgPhase = .idle then
      { s with videoEn := v.getLsbD 0, syncEn := v.getLsbD 1 } else s)

/-- R232, R94, R75: a BAND_HEAD write, accepted in every configuration phase. -/
def Obligations.WriteBandHeadRule : Prop :=
  ∀ (s : State) (v : Word), s.fault = none →
    exec (.wrBandHead v) s = .next { s with bandHead := v, bandTaken := false }

/-- R233, R95, R96, R97: the eleven timing shadow writes. -/
def Obligations.WriteTimingRule : Prop :=
  ∀ (s : State) (v : Word), s.fault = none →
    let field := v.extractLsb' 0 16
    let written (sh : Timing) := Host.Outcome.next (φ := Fault) (ρ := Refusal)
      (if s.cfgPhase = .idle then { s with sh := sh } else s)
    exec (.wrTLinePixels v) s = written { s.sh with linePixels := field }
    ∧ exec (.wrTSyncPixels v) s = written { s.sh with syncPixels := field }
    ∧ exec (.wrTBackPorchPixels v) s = written { s.sh with backPorchPixels := field }
    ∧ exec (.wrTVideoLead v) s = written { s.sh with videoLead := field }
    ∧ exec (.wrTVideoPixels v) s = written { s.sh with videoPixels := field }
    ∧ exec (.wrTPolarity v) s = written { s.sh with hpol := v.getLsbD 0, vpol := v.getLsbD 1 }
    ∧ exec (.wrTVsyncStartLine v) s = written { s.sh with vsyncStartLine := field }
    ∧ exec (.wrTVsyncEndLine v) s = written { s.sh with vsyncEndLine := field }
    ∧ exec (.wrTVideoStartLine v) s = written { s.sh with videoStartLine := field }
    ∧ exec (.wrTVideoEndLine v) s = written { s.sh with videoEndLine := field }
    ∧ exec (.wrTClockConfig v) s = written { s.sh with clockConfig := v }

/-- R234, R236, R98: a CMD write. -/
def Obligations.WriteCmdRule : Prop :=
  ∀ (s : State) (v : Word), s.fault = none →
    exec (.wrCmd v) s = .next (if s.cfgPhase = .idle ∧ v.toNat % 16 = 1 then
      { s with videoEn := false, syncEn := false, cfgPhase := .drain } else s)

/-- R99: a write to a read-only register or a reserved offset changes nothing. -/
def Obligations.IgnoredWritesChangeNothing : Prop :=
  ∀ (s : State) (v : Word) (reg : BitVec 6), s.fault = none →
    exec (.wrStatus v) s = .next s ∧ exec (.wrLine v) s = .next s ∧ exec (.wrReserved reg v) s = .next s

/-- R235, with R91 to R99: every register read gives the host its register's word and changes nothing else. -/
def Obligations.ReadRule : Prop :=
  ∀ s : State, s.fault = none →
    let read (i : Instr) (v : Word) : Prop := exec i s = .next { s with rdData := v }
    read .rdCtrl (BitVec.ofNat 32 (s.videoEn.toNat + 2 * s.syncEn.toNat))
    ∧ read .rdStatus (statusWord s)
    ∧ read .rdLine (BitVec.ofNat 32 (s.currentLine.toNat + 65536 * s.hcount.toNat))
    ∧ read .rdBandHead s.bandHead
    ∧ read .rdTLinePixels (s.sh.linePixels.zeroExtend 32)
    ∧ read .rdTSyncPixels (s.sh.syncPixels.zeroExtend 32)
    ∧ read .rdTBackPorchPixels (s.sh.backPorchPixels.zeroExtend 32)
    ∧ read .rdTVideoLead (s.sh.videoLead.zeroExtend 32)
    ∧ read .rdTVideoPixels (s.sh.videoPixels.zeroExtend 32)
    ∧ read .rdTPolarity (BitVec.ofNat 32 (s.sh.hpol.toNat + 2 * s.sh.vpol.toNat))
    ∧ read .rdTVsyncStartLine (s.sh.vsyncStartLine.zeroExtend 32)
    ∧ read .rdTVsyncEndLine (s.sh.vsyncEndLine.zeroExtend 32)
    ∧ read .rdTVideoStartLine (s.sh.videoStartLine.zeroExtend 32)
    ∧ read .rdTVideoEndLine (s.sh.videoEndLine.zeroExtend 32)
    ∧ read .rdTClockConfig s.sh.clockConfig
    ∧ read .rdCmd 0#32
    ∧ ∀ reg, read (.rdReserved reg) 0#32

/-- R92, with R27 and R46: the fields of STATUS. -/
def Obligations.StatusFields : Prop :=
  ∀ s : State,
    (statusWord s).extractLsb' 0 2 =
      (match s.display with
        | .blank => 0b00#2
        | .starting => 0b01#2
        | .active => 0b11#2
        | .finishing => 0b10#2)
    ∧ ((statusWord s).getLsbD 2 = true ↔ s.currentLine.toNat < s.t.videoStartLine.toNat)
    ∧ (statusWord s).getLsbD 3 = s.bandTaken
    ∧ (statusWord s).getLsbD 4 = s.deferPending
    ∧ ((statusWord s).getLsbD 5 = true ↔ s.dru.phase ≠ .idle)
    ∧ ((statusWord s).getLsbD 6 = true ↔ s.dru.phase = .renderWait)
    ∧ (statusWord s).getLsbD 7 = s.dma.busy
    ∧ (statusWord s).getLsbD 8 = s.run
    ∧ ((statusWord s).getLsbD 9 = true ↔ s.cfgPhase ≠ .idle)
    ∧ (statusWord s).getLsbD 10 = s.vsyncLevel
    ∧ (statusWord s).toNat < 2 ^ 11

/-- R44, R41, R100, R213: the values of the four pins that the model does not sample. That they are functions of every state,
not held until SAMPLE as R138 has the output pins, is notes/assumptions/7.md (DEDUCED). And what moves them: in QUIESCE a
CFG_LOAD the clock token (a TICK, or the sub-event alone, 4.md), HOOK_REQ and HOOK.ACK the hook request, SCHED and
RAST.RESP the rasterizer request and the grant. -/
def Obligations.UnsampledPins : Prop :=
  (∀ s : State, clkCfgPin s = s.clkCfgO ∧ hookReqPin s = s.hookReq ∧ wbGntPin s = decide (s.dru.phase = .renderWait)
    ∧ rastReqPin s = if s.dru.phase = .renderWait then some (s.rtok, s.ridx) else none)
  ∧ ∀ (i : Instr) (s t : State), s.Inv → exec i s = .next t → i ≠ .reset →
      (clkCfgPin t ≠ clkCfgPin s →
        (i = .tick ∨ i = .tickCfgLoad) ∧ s.cfgPhase = .quiesce ∧ clkCfgPin t = s.sh.clockConfig)
      ∧ (hookReqPin t ≠ hookReqPin s →
        (i = .druHookReq ∧ hookReqPin t = true) ∨ (i = .hookAck ∧ hookReqPin t = false))
      ∧ (rastReqPin t ≠ rastReqPin s →
        (i = .druSched ∧ rastReqPin t = some (s.currentBand.rast, s.dru.lineSnap - s.t.videoStartLine) ∧ wbGntPin t = true)
          ∨ ∃ d, i = .rastResp d ∧ rastReqPin t = none ∧ wbGntPin t = false)

/-! ### The host agent -/

/-- R240, R264: a wait loop of the host. It reads STATUS and, only when the bit has the level, waits; the wait takes no host
step until `host_evt` is 1, clears it, and reads again (the shape of the host's program is notes/assumptions/17.md). -/
def Obligations.HostWaitLoop : Prop :=
  ∀ (s : State) (bit : Fin 32) (lvl : Bool) (rest : List Input) (prog : List HostOp), s.fault = none →
    s.schedule = .host :: rest →
    (s.hostProg = .poll bit lvl :: prog →
      step s = .next { s with
        schedule := rest, rdData := statusWord s, hostVars := { s.hostVars with s := statusWord s }
        hostProg := if (statusWord s).getLsbD bit = lvl then .sleep bit lvl :: prog else prog })
    ∧ (s.hostProg = .sleep bit lvl :: prog →
      step s = .next (if s.hostEvt then
        { s with schedule := rest, hostEvt := false, hostProg := .poll bit lvl :: prog }
        else { s with schedule := rest }))

/-- R10, R124: a host memory write of `n` bytes is little-endian and leaves every other byte as it was. The byte order of a
write of another size than 4, the write's place in the host's program and its end of memory are notes/assumptions/16.md and
17.md. -/
def Obligations.HostMemoryWrite : Prop :=
  ∀ (s : State) (n : Nat) (addr : Word) (v : Nat) (rest : List Input) (prog : List HostOp), s.fault = none →
    s.schedule = .host :: rest → s.hostProg = .mw n addr v :: prog → addr.toNat + n ≤ 2 ^ 32 →
    ∃ m : Cells, step s = .next { s with schedule := rest, hostProg := prog, hostMem := m }
      ∧ ∀ a, hostByte m a =
          if addr.toNat ≤ a ∧ a < addr.toNat + n then BitVec.ofNat 8 (v / 2 ^ (8 * (a - addr.toNat)))
          else hostByte s.hostMem a

/-- R242, R243: `video_on`, `video_off`, `sync_on` and `sync_off`, in any program. The first host step binds CTRL to `c`; the
second writes what `c` holds with one bit changed, whatever any agent has done in between (a CTRL write of the host's between
them is lost), and during CONFIGURE it is dropped (R231). The host's program: notes/assumptions/17.md. -/
def Obligations.OutputSwitchProcedures : Prop :=
  let switches (proc : List HostOp) (video sync : Bool → Bool) : Prop :=
    ∀ (s : State) (rest : List Input) (more : List HostOp), s.fault = none → s.schedule = .host :: rest →
      s.hostProg = proc ++ more →
      ∃ t, step s = .next t
        ∧ t = { s with
            schedule := rest, rdData := ctrlWord s, hostVars := { s.hostVars with c := ctrlWord s }
            hostProg := t.hostProg }
        ∧ ∀ (u : State) (later : List Input), u.fault = none → u.schedule = .host :: later → u.hostProg = t.hostProg →
            u.hostVars = t.hostVars →
            step u = .next (if u.cfgPhase = .idle then
              { u with
                schedule := later, hostProg := more, videoEn := video s.videoEn, syncEn := sync s.syncEn }
              else { u with schedule := later, hostProg := more })
  switches procVideoOn (fun _ => true) id ∧ switches procVideoOff (fun _ => false) id
    ∧ switches procSyncOn id (fun _ => true) ∧ switches procSyncOff id (fun _ => false)

/-! ### Whole-machine rules -/

/-- The reset state meets the three invariants below (R291). -/
def Obligations.ResetMeetsTheInvariants : Prop :=
  State.reset.Inv ∧ State.reset.Filled ∧ State.reset.InLine

/-- R48, R142: every step of every agent keeps the invariant: the canonical form of the stores, the four invariants of R48
that say something, and the ranges the arithmetic relies on. The spec derives R48; the canonical forms are the model's.
A schedule may name a sub-event alone (notes/assumptions/4.md). -/
def Obligations.StepKeepsInvariant : Prop :=
  ∀ s t : State, s.Inv → step s = .next t → t.Inv

/-- R262: in the states in which every cell that will be read is written, no step reads an unwritten cell, and the next state
is such a state. (The spec derives it; its invariant is the model's. A schedule may name a sub-event alone,
notes/assumptions/4.md.) -/
def Obligations.NoStepReadsAnUnwrittenCell : Prop :=
  ∀ s t : State, s.Inv → s.Filled → step s = .next t → t.Filled ∧ t.fault ≠ some .unwrittenRead

/-- R171: every operation that an agent schedules keeps every stream inside its line, and none finds a stream busy at the
next trigger point (the spec derives it). -/
def Obligations.StreamsNeverOverlap : Prop :=
  ∀ (i : Instr) (s t : State), s.Inv → s.InLine → isSubEvent i = false → exec i s = .next t →
    t.InLine ∧ t.fault ≠ some .dmaOverlap

/-- R173, R174: in a TICK with a stream busy, `pix_latch` takes `SB[i]` exactly at position `sav_cmp + video_lead + i`, and
holds its value before (the spec derives R173). -/
def Obligations.PixelPosition : Prop :=
  ∀ s t : State, s.Inv → s.InLine → s.dma.busy = true → exec .tick s = .next t → t.fault = none →
    (s.hcount.toNat < s.savCmp.toNat + s.t.videoLead.toNat + s.dma.idx.toNat → t.pixLatch = s.pixLatch)
    ∧ (s.dma.delay = 0#16 →
        ∃ i, s.hcount.toNat = s.savCmp.toNat + s.t.videoLead.toNat + i ∧ i < s.dma.cnt.toNat
          ∧ s.sb.read i = some t.pixLatch ∧ t.dma.idx.toNat = i + 1 ∧ (t.dma.busy = true ↔ i + 1 ≠ s.dma.cnt.toNat))

/-- R197: whatever steps the other agents take in between, a flip begun by DISPATCH leaves `SB[0 .. n-1]` as `WB` stood at
DISPATCH, `SB[n]` 0x00, the rest as it was, and `dma_count` at `n + 1` (the spec derives it). The other
steps may be sub-events alone (notes/assumptions/4.md). -/
def Obligations.FlipIsExact : Prop :=
  (∀ s : State, s.fault = none → s.dru.phase = .idle → s.deferPending = true → s.display.bits.getLsbD 0 = true →
    ∃ t, exec .druDispatch s = .next t ∧ t.Flipping s.wb s.sb s.workShape.length)
  ∧ ∀ (i : Instr) (s t : State) (w b : Cells) (n : Half), s.Inv → s.Flipping w b n → i ≠ .reset →
      exec i s = .next t → t.Flipping w b n ∨ (i = .druTerm ∧ t.Flipped w b n)

/-- R61, R62, R176, R213: who writes the two buffers, and when. CFG_LOAD is that of a TICK, or the sub-event alone
(notes/assumptions/4.md). -/
def Obligations.BufferWriters : Prop :=
  ∀ (i : Instr) (s t : State), exec i s = .next t → i ≠ .reset →
    (t.sb ≠ s.sb →
      (s.dma.busy = false ∧ ((i = .druCopy ∧ s.dru.phase = .copy) ∨ (i = .druTail ∧ s.dru.phase = .tail)
          ∨ (i = .druTerm ∧ s.dru.phase = .term)))
      ∨ (s.cfgPhase = .quiesce ∧ s.dru.phase = .idle ∧ (i = .tick ∨ i = .tickCfgLoad)))
    ∧ (t.wb ≠ s.wb →
      (s.dru.phase = .renderWait ∧ ((∃ index data, i = .rastWb8 index data) ∨ ∃ windex data, i = .rastWb32 windex data))
      ∨ (s.cfgPhase = .quiesce ∧ s.dru.phase = .idle ∧ (i = .tick ∨ i = .tickCfgLoad)))

/-- R24, R76, R303: `T` changes only by a TICK that performs CFG_LOAD (or that sub-event alone, notes/assumptions/4.md), which
copies the whole of `SH`; `SH` changes only by one of the eleven timing writes, while no CONFIGURE runs. -/
def Obligations.ActiveTimingChangesOnlyAtLoad : Prop :=
  ∀ (i : Instr) (s t : State), exec i s = .next t → i ≠ .reset →
    (t.t ≠ s.t →
      (i = .tick ∨ i = .tickCfgLoad) ∧ s.cfgPhase = .quiesce ∧ s.deferPending = false ∧ s.dru.phase = .idle
        ∧ t.t = s.sh ∧ s.sh.wf = true ∧ t.currentLine = 0#16 ∧ t.display = .blank)
    ∧ (t.sh ≠ s.sh →
      s.cfgPhase = .idle ∧ t.t = s.t
        ∧ ∃ v, i ∈ [.wrTLinePixels v, .wrTSyncPixels v, .wrTBackPorchPixels v, .wrTVideoLead v, .wrTVideoPixels v,
          .wrTPolarity v, .wrTVsyncStartLine v, .wrTVsyncEndLine v, .wrTVideoStartLine v, .wrTVideoEndLine v,
          .wrTClockConfig v])

/-- R27, R159: the display state moves along `blank, starting, active, finishing, blank` and no other way, in an EAV (of a
TICK, or the sub-event alone, notes/assumptions/4.md), but for a CFG_LOAD in QUIESCE and a reset, which enter `blank`. -/
def Obligations.DisplayCycle : Prop :=
  ∀ (i : Instr) (s t : State), s.Inv → exec i s = .next t → t.display ≠ s.display →
    ((i = .reset ∨ ((i = .tick ∨ i = .tickCfgLoad) ∧ s.cfgPhase = .quiesce)) ∧ t.display = .blank)
    ∨ ((i = .tick ∨ i = .tickEav) ∧ s.run = true ∧ s.hcount.toNat = s.t.hend
        ∧ ((s.display = .blank ∧ t.display = .starting) ∨ (s.display = .starting ∧ t.display = .active)
            ∨ (s.display = .active ∧ t.display = .finishing) ∨ (s.display = .finishing ∧ t.display = .blank)))

/-- R30, R73, R75, R154: the handoff flag is set only by the EAV at the STARTING line (of a TICK, or the sub-event alone,
notes/assumptions/4.md), which also copies the installed head node, and cleared only by a BAND_HEAD write or a reset. -/
def Obligations.BandHandoff : Prop :=
  ∀ (i : Instr) (s t : State), exec i s = .next t →
    (s.bandTaken = false → t.bandTaken = true →
      (i = .tick ∨ i = .tickEav) ∧ s.run = true ∧ s.hcount.toNat = s.t.hend
      ∧ s.currentLine.toNat + 1 = s.t.videoStartLine.toNat ∧ t.bandHead = s.bandHead ∧ t.display = .starting
      ∧ ((s.bandHead = 0#32 ∧ t.currentBand = ⟨0#32, 0#32, 0#32⟩)
          ∨ (s.bandHead ≠ 0#32 ∧ t.currentBand.rast = wordAt s.hostMem s.bandHead.toNat
              ∧ t.currentBand.count = wordAt s.hostMem (s.bandHead.toNat + 4)
              ∧ t.currentBand.next = wordAt s.hostMem (s.bandHead.toNat + 8))))
    ∧ (s.bandTaken = true → t.bandTaken = false →
        (i = .reset ∧ t.bandHead = 0#32) ∨ ∃ v, i = .wrBandHead v ∧ t.bandHead = v)

/-- R160 (which the spec derives): from an EAV on, `vsync_level` is the pulse level exactly on the lines from `vss + 1` to
`vse`; every operation keeps that (a sub-event alone too: notes/assumptions/4.md). -/
def Obligations.VsyncPulse : Prop :=
  ∀ (i : Instr) (s t : State), s.Inv → exec i s = .next t →
    let level (u : State) : Prop :=
      u.run = true → (u.vsyncLevel = u.t.vpol ↔
        u.t.vsyncStartLine.toNat < u.currentLine.toNat ∧ u.currentLine.toNat ≤ u.t.vsyncEndLine.toNat)
    level s → level t

/-- R136, R266: while `RUN = 0` no operation moves the beam, streams a pixel or runs an EAV: what SAV, BEAT, EAV and ADVANCE
write stays as it was, but for the CFG_LOAD that starts the generator (R238) and the counter that DRAIN zeroes (R237).
Both may be the sub-event alone (notes/assumptions/4.md). -/
def Obligations.StoppedGeneratorDoesNothing : Prop :=
  ∀ (i : Instr) (s t : State), s.Inv → exec i s = .next t → i ≠ .reset → s.run = false →
    t.pixLatch = s.pixLatch ∧ t.dma = s.dma ∧ (t.hcount = s.hcount ∨ t.hcount = 0#16)
    ∧ t.vsyncLevel = (if t.run then !t.t.vpol else s.vsyncLevel) ∧ (t.deferPending = true → s.deferPending = true)
    ∧ (t.bandTaken = true → s.bandTaken = true)
    ∧ (t.run = true → (i = .tick ∨ i = .tickCfgLoad) ∧ s.cfgPhase = .quiesce)
    ∧ (t.run = false →
      t.currentLine = s.currentLine ∧ t.display = s.display ∧ t.savCmp = s.savCmp ∧ t.savCmpNext = s.savCmpNext)
end

