-- ==== Sys2Proof/Laws/Decode.lean ====
section
/-! SUPPORT. Lemmas about the parts of the decoder: the data beside a descriptor, the offset of a register access, and the
two register tables at reserved offsets. -/

namespace Sys2Proof

theorem withoutData_eq_ok {o : Option Instr} {d : BitVec 48} {i : Instr} (h : withoutData o d = .ok i) :
    o = some i ∧ d = 0#48 := by
  unfold withoutData at h; split at h
  · cases h
  · split at h
    · cases h; exact ⟨rfl, by assumption⟩
    · cases h

theorem word_of_data (d : BitVec 48) (h : d.extractLsb' 32 16 = 0#16) : d = 0#16 ++ d.extractLsb' 0 32 := by
  rw [← h]
  apply BitVec.eq_of_toNat_eq
  rw [BitVec.toNat_append]
  simp only [BitVec.extractLsb'_toNat, Nat.shiftRight_zero]
  rw [← Nat.shiftLeft_add_eq_or_of_lt (by omega), Nat.shiftLeft_eq, Nat.shiftRight_eq_div_pow]
  omega

theorem withWord_eq_ok {f : Word → Instr} {d : BitVec 48} {i : Instr} (h : withWord f d = .ok i) :
    ∃ v, i = f v ∧ d = 0#16 ++ v := by
  unfold withWord at h; split at h
  · cases h; refine ⟨_, rfl, ?_⟩; exact word_of_data d ‹_›
  · cases h

theorem wrOf_reserved {reg : BitVec 6} (h : reservedReg reg = true) (v : Word) :
    wrOf reg v = .wrReserved reg v := by
  unfold reservedReg at h
  simp at h
  unfold wrOf
  split <;> first | rfl | omega

theorem rdOf_reserved {reg : BitVec 6} (h : reservedReg reg = true) : rdOf reg = .rdReserved reg := by
  unfold reservedReg at h
  simp at h
  unfold rdOf
  split <;> first | rfl | omega

end Sys2Proof
end

