-- ==== Sys2Proof/Laws/Memory.lean ====
section
/-! SUPPORT. The laws of the byte stores: a read after a write, and that every operation keeps the canonical form. -/

namespace Sys2Proof.Machine

/-! ### Reads after writes -/

@[simp] theorem Cells.read_nil (a : Nat) : Cells.read [] a = none := rfl

theorem Cells.read_write (m : Cells) (a x : Nat) (b : Byte) :
    (m.write a b).read x = if a = x then some b else m.read x := by
  induction m with
  | nil => simp [Cells.write, Cells.read]
  | cons c cs ih =>
    unfold Cells.write
    split
    · simp [Cells.read]
    · split
      · rename_i _ h
        by_cases hx : a = x
        · simp [Cells.read, hx]
        · simp [Cells.read, hx, ← h]
      · rename_i h1 h2
        simp only [Cells.read, ih]
        by_cases hx : a = x
        · subst hx
          simp [Ne.symm h2]
        · simp [hx]

@[simp] theorem Cells.read_write_same (m : Cells) (a : Nat) (b : Byte) : (m.write a b).read a = some b := by
  simp [Cells.read_write]

theorem Cells.read_write_other (m : Cells) {a x : Nat} (b : Byte) (h : a ≠ x) :
    (m.write a b).read x = m.read x := by
  simp [Cells.read_write, h]

theorem Cells.read_append (m n : Cells) (x : Nat) : Cells.read (m ++ n) x = (m.read x).or (Cells.read n x) := by
  induction m with
  | nil => simp [Cells.read]
  | cons c cs ih =>
    simp only [List.cons_append, Cells.read]
    split
    · simp
    · exact ih

theorem Cells.read_filter (m : Cells) (p : Nat → Bool) (x : Nat) :
    Cells.read (m.filter fun c => p c.1) x = if p x then m.read x else none := by
  induction m with
  | nil => simp [Cells.read]
  | cons c cs ih =>
    simp only [List.filter_cons, Cells.read]
    by_cases hc : c.1 = x
    · subst hc
      by_cases hp : p c.1 <;> simp_all [Cells.read]
    · by_cases hp : p c.1 <;> simp_all [Cells.read]

theorem Cells.read_erase (m : Cells) (a x : Nat) :
    (m.erase a).read x = if a = x then none else m.read x := by
  rw [Cells.erase, Cells.read_filter m (fun k => k != a) x]
  by_cases h : a = x
  · simp [h]
  · simp [h, Ne.symm h]

theorem Cells.read_range (f : Nat → Byte) (lo n x : Nat) :
    Cells.read ((List.range' lo n).map fun i => (i, f i)) x
      = if lo ≤ x ∧ x < lo + n then some (f x) else none := by
  induction n generalizing lo with
  | zero => simp [show ¬ (lo ≤ x ∧ x < lo) by omega]
  | succ n ih =>
    simp only [List.range'_succ, List.map_cons, Cells.read, ih]
    by_cases h : lo = x
    · simp [h]
    · have e : (lo + 1 ≤ x ∧ x < lo + 1 + n) ↔ (lo ≤ x ∧ x < lo + (n + 1)) := by omega
      simp only [h, if_false, e]

/-- What `fill` leaves at every index. -/
theorem Cells.read_fill (m : Cells) (lo hi : Nat) (f : Nat → Byte) (x : Nat) :
    (m.fill lo hi f).read x = if lo ≤ x ∧ x < hi then some (f x) else m.read x := by
  rw [Cells.fill, Cells.read_append, Cells.read_append,
    Cells.read_filter m (fun k => decide (k < lo)) x, Cells.read_filter m (fun k => decide (max lo hi ≤ k)) x,
    Cells.read_range]
  by_cases h1 : x < lo
  · have : ¬ max lo hi ≤ x := by omega
    simp [h1, this, show ¬ lo ≤ x by omega]
  · by_cases h2 : x < hi
    · simp [h1, show lo ≤ x by omega, h2, show x < lo + (hi - lo) by omega]
    · simp [h1, show max lo hi ≤ x by omega, h2, show ¬ x < lo + (hi - lo) by omega]

/-! ### The canonical form -/

theorem Cells.mem_write {m : Cells} {a : Nat} {b : Byte} {c : Host.Cell} (h : c ∈ m.write a b) :
    c = (a, b) ∨ c ∈ m := by
  induction m with
  | nil => simpa [Cells.write] using h
  | cons d ds ih =>
    unfold Cells.write at h
    split at h
    · simpa using h
    · split at h
      · rcases List.mem_cons.1 h with h | h
        · exact .inl h
        · exact .inr (List.mem_cons_of_mem _ h)
      · rcases List.mem_cons.1 h with h | h
        · exact .inr (by simp [h])
        · rcases ih h with h | h
          · exact .inl h
          · exact .inr (List.mem_cons_of_mem _ h)

theorem Cells.rising_write {m : Cells} (h : m.rising) (a : Nat) (b : Byte) : (m.write a b).rising := by
  induction m with
  | nil => simp [Cells.write, Cells.rising]
  | cons c cs ih =>
    obtain ⟨h1, h2⟩ := List.pairwise_cons.1 h
    unfold Cells.write
    split
    · rename_i hlt
      refine List.pairwise_cons.2 ⟨fun d hd => ?_, h⟩
      rcases List.mem_cons.1 hd with rfl | hd
      · exact hlt
      · exact lt_trans hlt (h1 d hd)
    · split
      · rename_i _ heq
        exact List.pairwise_cons.2 ⟨fun d hd => heq ▸ h1 d hd, h2⟩
      · rename_i h3 h4
        refine List.pairwise_cons.2 ⟨fun d hd => ?_, ih h2⟩
        rcases Cells.mem_write hd with rfl | hd
        · exact show c.1 < a by omega
        · exact h1 d hd

theorem Cells.rising_filter {m : Cells} (h : m.rising) (p : Host.Cell → Bool) : Cells.rising (m.filter p) :=
  List.Pairwise.filter p h

theorem Cells.rising_erase {m : Cells} (h : m.rising) (a : Nat) : (m.erase a).rising := Cells.rising_filter h _

theorem Cells.rising_range (f : Nat → Byte) (lo n : Nat) :
    Cells.rising ((List.range' lo n).map fun i => (i, f i)) :=
  List.pairwise_map.2 List.pairwise_lt_range'

theorem Cells.rising_fill {m : Cells} (h : m.rising) (lo hi : Nat) (f : Nat → Byte) : (m.fill lo hi f).rising := by
  refine List.pairwise_append.2 ⟨List.pairwise_append.2
    ⟨Cells.rising_filter h _, Cells.rising_range f lo _, ?_⟩, Cells.rising_filter h _, ?_⟩
  · intro c hc d hd
    simp only [List.mem_filter, decide_eq_true_eq] at hc
    simp only [List.mem_map, List.mem_range'_1] at hd
    obtain ⟨i, hi, rfl⟩ := hd
    exact show c.1 < i by omega
  · intro c hc d hd
    simp only [List.mem_filter, decide_eq_true_eq] at hd
    rcases List.mem_append.1 hc with hc | hc
    · simp only [List.mem_filter, decide_eq_true_eq] at hc
      omega
    · simp only [List.mem_map, List.mem_range'_1] at hc
      obtain ⟨i, hi, rfl⟩ := hc
      exact show i < d.1 by omega

theorem Cells.rising_writeWord {m : Cells} (h : m.rising) (k : Nat) (w : Word) : (writeWord m k w).rising :=
  Cells.rising_write (Cells.rising_write (Cells.rising_write (Cells.rising_write h _ _) _ _) _ _) _ _

/-- A listed cell is what a read of its key gives. -/
theorem Cells.read_of_mem {m : Cells} (h : m.rising) {c : Host.Cell} (hc : c ∈ m) : m.read c.1 = some c.2 := by
  induction m with
  | nil => simp at hc
  | cons d ds ih =>
    obtain ⟨h1, h2⟩ := List.pairwise_cons.1 h
    rcases List.mem_cons.1 hc with rfl | hc
    · simp [Cells.read]
    · have := h1 c hc
      simp [Cells.read, show ¬ d.1 = c.1 by omega, ih h2 hc]

theorem Cells.mem_of_read {m : Cells} {a : Nat} {b : Byte} (h : m.read a = some b) : (a, b) ∈ m := by
  induction m with
  | nil => simp [Cells.read] at h
  | cons d ds ih =>
    unfold Cells.read at h
    split at h
    · rename_i hd
      obtain ⟨x, y⟩ := d
      simp_all
    · exact List.mem_cons_of_mem _ (ih h)

/-- Equal contents are equal lists: the canonical form is unique. -/
theorem Cells.eq_of_read {m n : Cells} (hm : m.rising) (hn : n.rising) (h : ∀ a, m.read a = n.read a) : m = n := by
  have key : ∀ {x y : Cells}, x.rising → (∀ a, x.read a = y.read a) → ∀ c ∈ x, c ∈ y := by
    intro x y hx hxy c hc
    have := Cells.read_of_mem hx hc
    rw [hxy] at this
    exact Cells.mem_of_read this
  exact List.Pairwise.eq_of_mem_iff hm hn fun c => ⟨key hm h c, key hn (fun a => (h a).symm) c⟩

/-! ### The line buffers -/

theorem Buffer.wf_write {n : Nat} {m : Cells} (h : Buffer.wf n m) {a : Nat} (ha : a < n) (b : Byte) :
    Buffer.wf n (m.write a b) := by
  refine ⟨Cells.rising_write h.1 a b, fun c hc => ?_⟩
  rcases Cells.mem_write hc with rfl | hc
  · exact ha
  · exact h.2 c hc

theorem Buffer.wf_writeWord {n : Nat} {m : Cells} (h : Buffer.wf n m) {k : Nat} (hk : 4 * k + 3 < n) (w : Word) :
    Buffer.wf n (writeWord m k w) :=
  Buffer.wf_write (Buffer.wf_write (Buffer.wf_write (Buffer.wf_write h (by omega) _) (by omega) _) (by omega) _) hk _

theorem Buffer.wf_fill {n : Nat} {m : Cells} (h : Buffer.wf n m) (lo : Nat) (f : Nat → Byte) :
    Buffer.wf n (m.fill lo n f) := by
  refine ⟨Cells.rising_fill h.1 lo n f, fun c hc => ?_⟩
  simp only [Cells.fill, List.mem_append, List.mem_filter, List.mem_map, List.mem_range'_1] at hc
  rcases hc with (hc | ⟨i, hi, rfl⟩) | hc
  · exact h.2 c hc.1
  · exact show i < n by omega
  · exact h.2 c hc.1

theorem Buffer.wf_fillSentinel {p : Params} {m : Cells} (h : Buffer.wf p.bufBytes m) :
    Buffer.wf p.bufBytes (fillSentinel p m) := Buffer.wf_fill h 0 _

theorem Buffer.wf_blankTrailing {p : Params} {m : Cells} (h : Buffer.wf p.bufBytes m) (v : Half) :
    Buffer.wf p.bufBytes (blankTrailing p v m) := Buffer.wf_fill h _ _

theorem Buffer.wf_copyBytes {n : Nat} {src : Cells} : ∀ {k j : Nat} {dst out : Cells}, Buffer.wf n dst → j + k ≤ n →
    copyBytes src k j dst = some out → Buffer.wf n out
  | 0, j, dst, out, h, _, e => by
    simp only [copyBytes, Option.some.injEq] at e
    exact e ▸ h
  | k + 1, j, dst, out, h, hk, e => by
    unfold copyBytes at e
    split at e
    · simp at e
    · exact Buffer.wf_copyBytes (Buffer.wf_write h (by omega) _) (by omega) e

/-- What `copyBytes` leaves at every index. -/
theorem read_copyBytes {src : Cells} : ∀ {k j : Nat} {dst out : Cells}, copyBytes src k j dst = some out → ∀ x,
    out.read x = if j ≤ x ∧ x < j + k then src.read x else dst.read x
  | 0, j, dst, out, e, x => by
    simp only [copyBytes, Option.some.injEq] at e
    simp [e, show ¬ (j ≤ x ∧ x < j) by omega]
  | k + 1, j, dst, out, e, x => by
    unfold copyBytes at e
    split at e
    · simp at e
    · rename_i b hb
      rw [read_copyBytes e x, Cells.read_write]
      by_cases h : j = x
      · subst h
        simp [hb]
      · have e : (j + 1 ≤ x ∧ x < j + 1 + k) ↔ (j ≤ x ∧ x < j + (k + 1)) := by omega
        simp only [h, if_false, e]

/-- `copyBytes` succeeds exactly when every byte of the range is written. -/
theorem copyBytes_isSome_iff {src : Cells} : ∀ {k j : Nat} {dst : Cells},
    (copyBytes src k j dst).isSome ↔ ∀ x, j ≤ x → x < j + k → (src.read x).isSome
  | 0, j, dst => by
    simp only [copyBytes, Option.isSome_some, true_iff]
    intro x h1 h2
    omega
  | k + 1, j, dst => by
    unfold copyBytes
    split
    · rename_i h
      simp only [Option.isSome_none, Bool.false_eq_true, false_iff]
      intro hall
      have := hall j (le_refl _) (by omega)
      simp [h] at this
    · rename_i b hb
      rw [copyBytes_isSome_iff]
      constructor
      · intro hall x h1 h2
        by_cases h : j = x
        · subst h
          simp [hb]
        · exact hall x (by omega) (by omega)
      · intro hall x h1 h2
        exact hall x (by omega) (by omega)

/-! ### Words -/

theorem getLsbD_wordOf (b0 b1 b2 b3 : Byte) (i : Nat) :
    (wordOf b0 b1 b2 b3).getLsbD i
      = if i < 8 then b0.getLsbD i else if i < 16 then b1.getLsbD (i - 8)
        else if i < 24 then b2.getLsbD (i - 16) else b3.getLsbD (i - 24) := by
  show BitVec.getLsbD (w := 8 + 8 + 8 + 8) (b3 ++ b2 ++ b1 ++ b0) i = _
  simp only [BitVec.getLsbD_append, Nat.sub_sub]
  by_cases h1 : i < 8
  · simp [h1]
  · by_cases h2 : i < 16
    · simp [h1, h2, show i - 8 < 8 by omega]
    · by_cases h3 : i < 24
      · simp [h1, h2, h3, show ¬ i - 8 < 8 by omega, show i - 16 < 8 by omega]
      · simp [h1, h2, h3, show ¬ i - 8 < 8 by omega, show ¬ i - 16 < 8 by omega]

theorem getLsbD_byteOf (w : Word) (j i : Nat) : (byteOf w j).getLsbD i = (decide (i < 8) && w.getLsbD (8 * j + i)) := by
  simp [byteOf]

theorem byteOf_wordOf (b0 b1 b2 b3 : Byte) :
    byteOf (wordOf b0 b1 b2 b3) 0 = b0 ∧ byteOf (wordOf b0 b1 b2 b3) 1 = b1
      ∧ byteOf (wordOf b0 b1 b2 b3) 2 = b2 ∧ byteOf (wordOf b0 b1 b2 b3) 3 = b3 := by
  refine ⟨?_, ?_, ?_, ?_⟩ <;>
  · refine BitVec.eq_of_getLsbD_eq fun i hi => ?_
    rw [getLsbD_byteOf, getLsbD_wordOf]
    split <;> [skip; split <;> [skip; split]] <;> simp [hi] <;> omega

/-- A word is its four bytes. -/
theorem wordOf_byteOf (w : Word) : wordOf (byteOf w 0) (byteOf w 1) (byteOf w 2) (byteOf w 3) = w := by
  refine BitVec.eq_of_getLsbD_eq fun i hi => ?_
  simp only [getLsbD_wordOf, getLsbD_byteOf]
  by_cases h1 : i < 8
  · simp [h1]
  · by_cases h2 : i < 16
    · simp [h1, h2, show i - 8 < 8 by omega, show 8 + (i - 8) = i by omega]
    · by_cases h3 : i < 24
      · simp [h1, h2, h3, show i - 16 < 8 by omega, show 16 + (i - 16) = i by omega]
      · simp [h1, h2, h3, show i - 24 < 8 by omega, show 24 + (i - 24) = i by omega]

/-- What `writeWord` leaves at every index. -/
theorem read_writeWord (m : Cells) (k : Nat) (w : Word) (x : Nat) :
    (writeWord m k w).read x = if x / 4 = k then some (byteOf w (x % 4)) else m.read x := by
  simp only [writeWord, Cells.read_write]
  by_cases h : x / 4 = k
  · rw [if_pos h]
    have hx : x = 4 * k + x % 4 := by omega
    have hlt : x % 4 < 4 := Nat.mod_lt _ (by omega)
    generalize x % 4 = r at hx hlt
    subst hx
    interval_cases r <;> simp
  · simp only [if_neg h]
    rw [if_neg (by omega), if_neg (by omega), if_neg (by omega), if_neg (by omega)]

/-- A buffer word is read exactly when none of its four bytes is unwritten. -/
theorem readWord_eq_some_iff (m : Cells) (k : Nat) (w : Word) :
    readWord m k = some w ↔
      m.read (4 * k) = some (byteOf w 0) ∧ m.read (4 * k + 1) = some (byteOf w 1)
        ∧ m.read (4 * k + 2) = some (byteOf w 2) ∧ m.read (4 * k + 3) = some (byteOf w 3) := by
  unfold readWord
  constructor
  · split
    · rename_i b0 b1 b2 b3 h0 h1 h2 h3
      intro h
      simp only [Option.some.injEq] at h
      subst h
      obtain ⟨e0, e1, e2, e3⟩ := byteOf_wordOf b0 b1 b2 b3
      simp [h0, h1, h2, h3, e0, e1, e2, e3]
    · simp
  · rintro ⟨h0, h1, h2, h3⟩
    simp only [h0, h1, h2, h3, wordOf_byteOf]

/-! ### Host memory -/

theorem hostByte_hostWriteByte (m : Cells) (a x : Nat) (b : Byte) :
    hostByte (hostWriteByte m a b) x = if a = x then b else hostByte m x := by
  unfold hostByte hostWriteByte
  split
  · rename_i hb
    rw [Cells.read_erase]
    split <;> simp_all
  · rw [Cells.read_write]
    split <;> simp

/-- What a host write of `n` bytes leaves at every address. -/
theorem hostByte_hostWrite (m : Cells) (a v n x : Nat) :
    hostByte (hostWrite m a v n) x = if a ≤ x ∧ x < a + n then valueByte v (x - a) else hostByte m x := by
  induction n with
  | zero => simp [hostWrite, show ¬ (a ≤ x ∧ x < a) by omega]
  | succ n ih =>
    rw [hostWrite, hostByte_hostWriteByte, ih]
    by_cases h : a + n = x
    · subst h
      simp
    · have : (a ≤ x ∧ x < a + (n + 1)) ↔ (a ≤ x ∧ x < a + n) := by omega
      simp [h, this]

theorem Memory.wf_hostWriteByte {m : Cells} (h : Memory.wf m) {a : Nat} (ha : a < 2 ^ 32) (b : Byte) :
    Memory.wf (hostWriteByte m a b) := by
  unfold hostWriteByte
  split
  · exact ⟨Cells.rising_erase h.1 a, fun c hc => h.2 c (List.mem_filter.1 hc).1⟩
  · rename_i hb
    refine ⟨Cells.rising_write h.1 a b, fun c hc => ?_⟩
    rcases Cells.mem_write hc with rfl | hc
    · exact ⟨ha, hb⟩
    · exact h.2 c hc

/-- A host write that stays in the 32-bit space keeps host memory's canonical form. -/
theorem Memory.wf_hostWrite {m : Cells} (h : Memory.wf m) {a n : Nat} (v : Nat) (ha : a + n ≤ 2 ^ 32) :
    Memory.wf (hostWrite m a v n) := by
  induction n with
  | zero => exact h
  | succ n ih => exact Memory.wf_hostWriteByte (ih (by omega)) (by omega) _

theorem Memory.wf_reset : Memory.wf State.reset.hostMem := by decide

end Sys2Proof.Machine
end

