-- ==== Sys2Proof/Laws/State.lean ====
section
/-! SUPPORT. One lemma per field for each named update of the state, true by `rfl`, so that no later proof unfolds a record
update. -/

namespace Sys2Proof.Machine

/-! ### `raise` -/

@[simp] theorem raise_params (s : State) (c : Fault) : (s.raise c).params = s.params := rfl
@[simp] theorem raise_schedule (s : State) (c : Fault) : (s.raise c).schedule = s.schedule := rfl
@[simp] theorem raise_druTurn (s : State) (c : Fault) : (s.raise c).druTurn = s.druTurn := rfl
@[simp] theorem raise_fault (s : State) (c : Fault) : (s.raise c).fault = some c := rfl
@[simp] theorem raise_videoEn (s : State) (c : Fault) : (s.raise c).videoEn = s.videoEn := rfl
@[simp] theorem raise_syncEn (s : State) (c : Fault) : (s.raise c).syncEn = s.syncEn := rfl
@[simp] theorem raise_sh (s : State) (c : Fault) : (s.raise c).sh = s.sh := rfl
@[simp] theorem raise_t (s : State) (c : Fault) : (s.raise c).t = s.t := rfl
@[simp] theorem raise_run (s : State) (c : Fault) : (s.raise c).run = s.run := rfl
@[simp] theorem raise_cfgPhase (s : State) (c : Fault) : (s.raise c).cfgPhase = s.cfgPhase := rfl
@[simp] theorem raise_hcount (s : State) (c : Fault) : (s.raise c).hcount = s.hcount := rfl
@[simp] theorem raise_savCmp (s : State) (c : Fault) : (s.raise c).savCmp = s.savCmp := rfl
@[simp] theorem raise_savCmpNext (s : State) (c : Fault) : (s.raise c).savCmpNext = s.savCmpNext := rfl
@[simp] theorem raise_display (s : State) (c : Fault) : (s.raise c).display = s.display := rfl
@[simp] theorem raise_currentLine (s : State) (c : Fault) : (s.raise c).currentLine = s.currentLine := rfl
@[simp] theorem raise_vsyncLevel (s : State) (c : Fault) : (s.raise c).vsyncLevel = s.vsyncLevel := rfl
@[simp] theorem raise_bandHead (s : State) (c : Fault) : (s.raise c).bandHead = s.bandHead := rfl
@[simp] theorem raise_bandTaken (s : State) (c : Fault) : (s.raise c).bandTaken = s.bandTaken := rfl
@[simp] theorem raise_currentBand (s : State) (c : Fault) : (s.raise c).currentBand = s.currentBand := rfl
@[simp] theorem raise_deferPending (s : State) (c : Fault) : (s.raise c).deferPending = s.deferPending := rfl
@[simp] theorem raise_dru (s : State) (c : Fault) : (s.raise c).dru = s.dru := rfl
@[simp] theorem raise_hookReq (s : State) (c : Fault) : (s.raise c).hookReq = s.hookReq := rfl
@[simp] theorem raise_rtok (s : State) (c : Fault) : (s.raise c).rtok = s.rtok := rfl
@[simp] theorem raise_ridx (s : State) (c : Fault) : (s.raise c).ridx = s.ridx := rfl
@[simp] theorem raise_workShape (s : State) (c : Fault) : (s.raise c).workShape = s.workShape := rfl
@[simp] theorem raise_dmaCount (s : State) (c : Fault) : (s.raise c).dmaCount = s.dmaCount := rfl
@[simp] theorem raise_dma (s : State) (c : Fault) : (s.raise c).dma = s.dma := rfl
@[simp] theorem raise_pixLatch (s : State) (c : Fault) : (s.raise c).pixLatch = s.pixLatch := rfl
@[simp] theorem raise_evt (s : State) (c : Fault) : (s.raise c).evt = s.evt := rfl
@[simp] theorem raise_clkCfgO (s : State) (c : Fault) : (s.raise c).clkCfgO = s.clkCfgO := rfl
@[simp] theorem raise_wb (s : State) (c : Fault) : (s.raise c).wb = s.wb := rfl
@[simp] theorem raise_sb (s : State) (c : Fault) : (s.raise c).sb = s.sb := rfl
@[simp] theorem raise_pins (s : State) (c : Fault) : (s.raise c).pins = s.pins := rfl
@[simp] theorem raise_htgRan (s : State) (c : Fault) : (s.raise c).htgRan = s.htgRan := rfl
@[simp] theorem raise_tickH (s : State) (c : Fault) : (s.raise c).tickH = s.tickH := rfl
@[simp] theorem raise_hostMem (s : State) (c : Fault) : (s.raise c).hostMem = s.hostMem := rfl
@[simp] theorem raise_hostEvt (s : State) (c : Fault) : (s.raise c).hostEvt = s.hostEvt := rfl
@[simp] theorem raise_rdData (s : State) (c : Fault) : (s.raise c).rdData = s.rdData := rfl
@[simp] theorem raise_hostVars (s : State) (c : Fault) : (s.raise c).hostVars = s.hostVars := rfl
@[simp] theorem raise_hostProg (s : State) (c : Fault) : (s.raise c).hostProg = s.hostProg := rfl

/-! ### `returnRead` -/

@[simp] theorem returnRead_params (s : State) (v : Word) : (s.returnRead v).params = s.params := rfl
@[simp] theorem returnRead_schedule (s : State) (v : Word) : (s.returnRead v).schedule = s.schedule := rfl
@[simp] theorem returnRead_druTurn (s : State) (v : Word) : (s.returnRead v).druTurn = s.druTurn := rfl
@[simp] theorem returnRead_fault (s : State) (v : Word) : (s.returnRead v).fault = s.fault := rfl
@[simp] theorem returnRead_videoEn (s : State) (v : Word) : (s.returnRead v).videoEn = s.videoEn := rfl
@[simp] theorem returnRead_syncEn (s : State) (v : Word) : (s.returnRead v).syncEn = s.syncEn := rfl
@[simp] theorem returnRead_sh (s : State) (v : Word) : (s.returnRead v).sh = s.sh := rfl
@[simp] theorem returnRead_t (s : State) (v : Word) : (s.returnRead v).t = s.t := rfl
@[simp] theorem returnRead_run (s : State) (v : Word) : (s.returnRead v).run = s.run := rfl
@[simp] theorem returnRead_cfgPhase (s : State) (v : Word) : (s.returnRead v).cfgPhase = s.cfgPhase := rfl
@[simp] theorem returnRead_hcount (s : State) (v : Word) : (s.returnRead v).hcount = s.hcount := rfl
@[simp] theorem returnRead_savCmp (s : State) (v : Word) : (s.returnRead v).savCmp = s.savCmp := rfl
@[simp] theorem returnRead_savCmpNext (s : State) (v : Word) : (s.returnRead v).savCmpNext = s.savCmpNext := rfl
@[simp] theorem returnRead_display (s : State) (v : Word) : (s.returnRead v).display = s.display := rfl
@[simp] theorem returnRead_currentLine (s : State) (v : Word) : (s.returnRead v).currentLine = s.currentLine := rfl
@[simp] theorem returnRead_vsyncLevel (s : State) (v : Word) : (s.returnRead v).vsyncLevel = s.vsyncLevel := rfl
@[simp] theorem returnRead_bandHead (s : State) (v : Word) : (s.returnRead v).bandHead = s.bandHead := rfl
@[simp] theorem returnRead_bandTaken (s : State) (v : Word) : (s.returnRead v).bandTaken = s.bandTaken := rfl
@[simp] theorem returnRead_currentBand (s : State) (v : Word) : (s.returnRead v).currentBand = s.currentBand := rfl
@[simp] theorem returnRead_deferPending (s : State) (v : Word) : (s.returnRead v).deferPending = s.deferPending := rfl
@[simp] theorem returnRead_dru (s : State) (v : Word) : (s.returnRead v).dru = s.dru := rfl
@[simp] theorem returnRead_hookReq (s : State) (v : Word) : (s.returnRead v).hookReq = s.hookReq := rfl
@[simp] theorem returnRead_rtok (s : State) (v : Word) : (s.returnRead v).rtok = s.rtok := rfl
@[simp] theorem returnRead_ridx (s : State) (v : Word) : (s.returnRead v).ridx = s.ridx := rfl
@[simp] theorem returnRead_workShape (s : State) (v : Word) : (s.returnRead v).workShape = s.workShape := rfl
@[simp] theorem returnRead_dmaCount (s : State) (v : Word) : (s.returnRead v).dmaCount = s.dmaCount := rfl
@[simp] theorem returnRead_dma (s : State) (v : Word) : (s.returnRead v).dma = s.dma := rfl
@[simp] theorem returnRead_pixLatch (s : State) (v : Word) : (s.returnRead v).pixLatch = s.pixLatch := rfl
@[simp] theorem returnRead_evt (s : State) (v : Word) : (s.returnRead v).evt = s.evt := rfl
@[simp] theorem returnRead_clkCfgO (s : State) (v : Word) : (s.returnRead v).clkCfgO = s.clkCfgO := rfl
@[simp] theorem returnRead_wb (s : State) (v : Word) : (s.returnRead v).wb = s.wb := rfl
@[simp] theorem returnRead_sb (s : State) (v : Word) : (s.returnRead v).sb = s.sb := rfl
@[simp] theorem returnRead_pins (s : State) (v : Word) : (s.returnRead v).pins = s.pins := rfl
@[simp] theorem returnRead_htgRan (s : State) (v : Word) : (s.returnRead v).htgRan = s.htgRan := rfl
@[simp] theorem returnRead_tickH (s : State) (v : Word) : (s.returnRead v).tickH = s.tickH := rfl
@[simp] theorem returnRead_hostMem (s : State) (v : Word) : (s.returnRead v).hostMem = s.hostMem := rfl
@[simp] theorem returnRead_hostEvt (s : State) (v : Word) : (s.returnRead v).hostEvt = s.hostEvt := rfl
@[simp] theorem returnRead_rdData (s : State) (v : Word) : (s.returnRead v).rdData = v := rfl
@[simp] theorem returnRead_hostVars (s : State) (v : Word) : (s.returnRead v).hostVars = s.hostVars := rfl
@[simp] theorem returnRead_hostProg (s : State) (v : Word) : (s.returnRead v).hostProg = s.hostProg := rfl

/-! ### `toPhase` -/

@[simp] theorem toPhase_params (s : State) (p : DruPhase) : (s.toPhase p).params = s.params := rfl
@[simp] theorem toPhase_schedule (s : State) (p : DruPhase) : (s.toPhase p).schedule = s.schedule := rfl
@[simp] theorem toPhase_druTurn (s : State) (p : DruPhase) : (s.toPhase p).druTurn = s.druTurn := rfl
@[simp] theorem toPhase_fault (s : State) (p : DruPhase) : (s.toPhase p).fault = s.fault := rfl
@[simp] theorem toPhase_videoEn (s : State) (p : DruPhase) : (s.toPhase p).videoEn = s.videoEn := rfl
@[simp] theorem toPhase_syncEn (s : State) (p : DruPhase) : (s.toPhase p).syncEn = s.syncEn := rfl
@[simp] theorem toPhase_sh (s : State) (p : DruPhase) : (s.toPhase p).sh = s.sh := rfl
@[simp] theorem toPhase_t (s : State) (p : DruPhase) : (s.toPhase p).t = s.t := rfl
@[simp] theorem toPhase_run (s : State) (p : DruPhase) : (s.toPhase p).run = s.run := rfl
@[simp] theorem toPhase_cfgPhase (s : State) (p : DruPhase) : (s.toPhase p).cfgPhase = s.cfgPhase := rfl
@[simp] theorem toPhase_hcount (s : State) (p : DruPhase) : (s.toPhase p).hcount = s.hcount := rfl
@[simp] theorem toPhase_savCmp (s : State) (p : DruPhase) : (s.toPhase p).savCmp = s.savCmp := rfl
@[simp] theorem toPhase_savCmpNext (s : State) (p : DruPhase) : (s.toPhase p).savCmpNext = s.savCmpNext := rfl
@[simp] theorem toPhase_display (s : State) (p : DruPhase) : (s.toPhase p).display = s.display := rfl
@[simp] theorem toPhase_currentLine (s : State) (p : DruPhase) : (s.toPhase p).currentLine = s.currentLine := rfl
@[simp] theorem toPhase_vsyncLevel (s : State) (p : DruPhase) : (s.toPhase p).vsyncLevel = s.vsyncLevel := rfl
@[simp] theorem toPhase_bandHead (s : State) (p : DruPhase) : (s.toPhase p).bandHead = s.bandHead := rfl
@[simp] theorem toPhase_bandTaken (s : State) (p : DruPhase) : (s.toPhase p).bandTaken = s.bandTaken := rfl
@[simp] theorem toPhase_currentBand (s : State) (p : DruPhase) : (s.toPhase p).currentBand = s.currentBand := rfl
@[simp] theorem toPhase_deferPending (s : State) (p : DruPhase) : (s.toPhase p).deferPending = s.deferPending := rfl
@[simp] theorem toPhase_dru (s : State) (p : DruPhase) : (s.toPhase p).dru = { s.dru with phase := p } := rfl
@[simp] theorem toPhase_hookReq (s : State) (p : DruPhase) : (s.toPhase p).hookReq = s.hookReq := rfl
@[simp] theorem toPhase_rtok (s : State) (p : DruPhase) : (s.toPhase p).rtok = s.rtok := rfl
@[simp] theorem toPhase_ridx (s : State) (p : DruPhase) : (s.toPhase p).ridx = s.ridx := rfl
@[simp] theorem toPhase_workShape (s : State) (p : DruPhase) : (s.toPhase p).workShape = s.workShape := rfl
@[simp] theorem toPhase_dmaCount (s : State) (p : DruPhase) : (s.toPhase p).dmaCount = s.dmaCount := rfl
@[simp] theorem toPhase_dma (s : State) (p : DruPhase) : (s.toPhase p).dma = s.dma := rfl
@[simp] theorem toPhase_pixLatch (s : State) (p : DruPhase) : (s.toPhase p).pixLatch = s.pixLatch := rfl
@[simp] theorem toPhase_evt (s : State) (p : DruPhase) : (s.toPhase p).evt = s.evt := rfl
@[simp] theorem toPhase_clkCfgO (s : State) (p : DruPhase) : (s.toPhase p).clkCfgO = s.clkCfgO := rfl
@[simp] theorem toPhase_wb (s : State) (p : DruPhase) : (s.toPhase p).wb = s.wb := rfl
@[simp] theorem toPhase_sb (s : State) (p : DruPhase) : (s.toPhase p).sb = s.sb := rfl
@[simp] theorem toPhase_pins (s : State) (p : DruPhase) : (s.toPhase p).pins = s.pins := rfl
@[simp] theorem toPhase_htgRan (s : State) (p : DruPhase) : (s.toPhase p).htgRan = s.htgRan := rfl
@[simp] theorem toPhase_tickH (s : State) (p : DruPhase) : (s.toPhase p).tickH = s.tickH := rfl
@[simp] theorem toPhase_hostMem (s : State) (p : DruPhase) : (s.toPhase p).hostMem = s.hostMem := rfl
@[simp] theorem toPhase_hostEvt (s : State) (p : DruPhase) : (s.toPhase p).hostEvt = s.hostEvt := rfl
@[simp] theorem toPhase_rdData (s : State) (p : DruPhase) : (s.toPhase p).rdData = s.rdData := rfl
@[simp] theorem toPhase_hostVars (s : State) (p : DruPhase) : (s.toPhase p).hostVars = s.hostVars := rfl
@[simp] theorem toPhase_hostProg (s : State) (p : DruPhase) : (s.toPhase p).hostProg = s.hostProg := rfl

/-! ### `beginTick` -/

@[simp] theorem beginTick_params (s : State) : (s.beginTick).params = s.params := rfl
@[simp] theorem beginTick_schedule (s : State) : (s.beginTick).schedule = s.schedule := rfl
@[simp] theorem beginTick_druTurn (s : State) : (s.beginTick).druTurn = s.druTurn := rfl
@[simp] theorem beginTick_fault (s : State) : (s.beginTick).fault = s.fault := rfl
@[simp] theorem beginTick_videoEn (s : State) : (s.beginTick).videoEn = s.videoEn := rfl
@[simp] theorem beginTick_syncEn (s : State) : (s.beginTick).syncEn = s.syncEn := rfl
@[simp] theorem beginTick_sh (s : State) : (s.beginTick).sh = s.sh := rfl
@[simp] theorem beginTick_t (s : State) : (s.beginTick).t = s.t := rfl
@[simp] theorem beginTick_run (s : State) : (s.beginTick).run = s.run := rfl
@[simp] theorem beginTick_cfgPhase (s : State) : (s.beginTick).cfgPhase = s.cfgPhase := rfl
@[simp] theorem beginTick_hcount (s : State) : (s.beginTick).hcount = s.hcount := rfl
@[simp] theorem beginTick_savCmp (s : State) : (s.beginTick).savCmp = s.savCmp := rfl
@[simp] theorem beginTick_savCmpNext (s : State) : (s.beginTick).savCmpNext = s.savCmpNext := rfl
@[simp] theorem beginTick_display (s : State) : (s.beginTick).display = s.display := rfl
@[simp] theorem beginTick_currentLine (s : State) : (s.beginTick).currentLine = s.currentLine := rfl
@[simp] theorem beginTick_vsyncLevel (s : State) : (s.beginTick).vsyncLevel = s.vsyncLevel := rfl
@[simp] theorem beginTick_bandHead (s : State) : (s.beginTick).bandHead = s.bandHead := rfl
@[simp] theorem beginTick_bandTaken (s : State) : (s.beginTick).bandTaken = s.bandTaken := rfl
@[simp] theorem beginTick_currentBand (s : State) : (s.beginTick).currentBand = s.currentBand := rfl
@[simp] theorem beginTick_deferPending (s : State) : (s.beginTick).deferPending = s.deferPending := rfl
@[simp] theorem beginTick_dru (s : State) : (s.beginTick).dru = s.dru := rfl
@[simp] theorem beginTick_hookReq (s : State) : (s.beginTick).hookReq = s.hookReq := rfl
@[simp] theorem beginTick_rtok (s : State) : (s.beginTick).rtok = s.rtok := rfl
@[simp] theorem beginTick_ridx (s : State) : (s.beginTick).ridx = s.ridx := rfl
@[simp] theorem beginTick_workShape (s : State) : (s.beginTick).workShape = s.workShape := rfl
@[simp] theorem beginTick_dmaCount (s : State) : (s.beginTick).dmaCount = s.dmaCount := rfl
@[simp] theorem beginTick_dma (s : State) : (s.beginTick).dma = s.dma := rfl
@[simp] theorem beginTick_pixLatch (s : State) : (s.beginTick).pixLatch = s.pixLatch := rfl
@[simp] theorem beginTick_evt (s : State) : (s.beginTick).evt = false := rfl
@[simp] theorem beginTick_clkCfgO (s : State) : (s.beginTick).clkCfgO = s.clkCfgO := rfl
@[simp] theorem beginTick_wb (s : State) : (s.beginTick).wb = s.wb := rfl
@[simp] theorem beginTick_sb (s : State) : (s.beginTick).sb = s.sb := rfl
@[simp] theorem beginTick_pins (s : State) : (s.beginTick).pins = s.pins := rfl
@[simp] theorem beginTick_htgRan (s : State) : (s.beginTick).htgRan = false := rfl
@[simp] theorem beginTick_tickH (s : State) : (s.beginTick).tickH = s.tickH := rfl
@[simp] theorem beginTick_hostMem (s : State) : (s.beginTick).hostMem = s.hostMem := rfl
@[simp] theorem beginTick_hostEvt (s : State) : (s.beginTick).hostEvt = s.hostEvt := rfl
@[simp] theorem beginTick_rdData (s : State) : (s.beginTick).rdData = s.rdData := rfl
@[simp] theorem beginTick_hostVars (s : State) : (s.beginTick).hostVars = s.hostVars := rfl
@[simp] theorem beginTick_hostProg (s : State) : (s.beginTick).hostProg = s.hostProg := rfl

/-! ### `latchH` -/

@[simp] theorem latchH_params (s : State) : (s.latchH).params = s.params := rfl
@[simp] theorem latchH_schedule (s : State) : (s.latchH).schedule = s.schedule := rfl
@[simp] theorem latchH_druTurn (s : State) : (s.latchH).druTurn = s.druTurn := rfl
@[simp] theorem latchH_fault (s : State) : (s.latchH).fault = s.fault := rfl
@[simp] theorem latchH_videoEn (s : State) : (s.latchH).videoEn = s.videoEn := rfl
@[simp] theorem latchH_syncEn (s : State) : (s.latchH).syncEn = s.syncEn := rfl
@[simp] theorem latchH_sh (s : State) : (s.latchH).sh = s.sh := rfl
@[simp] theorem latchH_t (s : State) : (s.latchH).t = s.t := rfl
@[simp] theorem latchH_run (s : State) : (s.latchH).run = s.run := rfl
@[simp] theorem latchH_cfgPhase (s : State) : (s.latchH).cfgPhase = s.cfgPhase := rfl
@[simp] theorem latchH_hcount (s : State) : (s.latchH).hcount = s.hcount := rfl
@[simp] theorem latchH_savCmp (s : State) : (s.latchH).savCmp = s.savCmp := rfl
@[simp] theorem latchH_savCmpNext (s : State) : (s.latchH).savCmpNext = s.savCmpNext := rfl
@[simp] theorem latchH_display (s : State) : (s.latchH).display = s.display := rfl
@[simp] theorem latchH_currentLine (s : State) : (s.latchH).currentLine = s.currentLine := rfl
@[simp] theorem latchH_vsyncLevel (s : State) : (s.latchH).vsyncLevel = s.vsyncLevel := rfl
@[simp] theorem latchH_bandHead (s : State) : (s.latchH).bandHead = s.bandHead := rfl
@[simp] theorem latchH_bandTaken (s : State) : (s.latchH).bandTaken = s.bandTaken := rfl
@[simp] theorem latchH_currentBand (s : State) : (s.latchH).currentBand = s.currentBand := rfl
@[simp] theorem latchH_deferPending (s : State) : (s.latchH).deferPending = s.deferPending := rfl
@[simp] theorem latchH_dru (s : State) : (s.latchH).dru = s.dru := rfl
@[simp] theorem latchH_hookReq (s : State) : (s.latchH).hookReq = s.hookReq := rfl
@[simp] theorem latchH_rtok (s : State) : (s.latchH).rtok = s.rtok := rfl
@[simp] theorem latchH_ridx (s : State) : (s.latchH).ridx = s.ridx := rfl
@[simp] theorem latchH_workShape (s : State) : (s.latchH).workShape = s.workShape := rfl
@[simp] theorem latchH_dmaCount (s : State) : (s.latchH).dmaCount = s.dmaCount := rfl
@[simp] theorem latchH_dma (s : State) : (s.latchH).dma = s.dma := rfl
@[simp] theorem latchH_pixLatch (s : State) : (s.latchH).pixLatch = s.pixLatch := rfl
@[simp] theorem latchH_evt (s : State) : (s.latchH).evt = s.evt := rfl
@[simp] theorem latchH_clkCfgO (s : State) : (s.latchH).clkCfgO = s.clkCfgO := rfl
@[simp] theorem latchH_wb (s : State) : (s.latchH).wb = s.wb := rfl
@[simp] theorem latchH_sb (s : State) : (s.latchH).sb = s.sb := rfl
@[simp] theorem latchH_pins (s : State) : (s.latchH).pins = s.pins := rfl
@[simp] theorem latchH_htgRan (s : State) : (s.latchH).htgRan = true := rfl
@[simp] theorem latchH_tickH (s : State) : (s.latchH).tickH = s.hcount := rfl
@[simp] theorem latchH_hostMem (s : State) : (s.latchH).hostMem = s.hostMem := rfl
@[simp] theorem latchH_hostEvt (s : State) : (s.latchH).hostEvt = s.hostEvt := rfl
@[simp] theorem latchH_rdData (s : State) : (s.latchH).rdData = s.rdData := rfl
@[simp] theorem latchH_hostVars (s : State) : (s.latchH).hostVars = s.hostVars := rfl
@[simp] theorem latchH_hostProg (s : State) : (s.latchH).hostProg = s.hostProg := rfl

/-! ### `popTo` -/

@[simp] theorem popTo_params (s : State) (rest : List Input) : (s.popTo rest).params = s.params := rfl
@[simp] theorem popTo_schedule (s : State) (rest : List Input) : (s.popTo rest).schedule = rest := rfl
@[simp] theorem popTo_druTurn (s : State) (rest : List Input) : (s.popTo rest).druTurn = s.druTurn := rfl
@[simp] theorem popTo_fault (s : State) (rest : List Input) : (s.popTo rest).fault = s.fault := rfl
@[simp] theorem popTo_videoEn (s : State) (rest : List Input) : (s.popTo rest).videoEn = s.videoEn := rfl
@[simp] theorem popTo_syncEn (s : State) (rest : List Input) : (s.popTo rest).syncEn = s.syncEn := rfl
@[simp] theorem popTo_sh (s : State) (rest : List Input) : (s.popTo rest).sh = s.sh := rfl
@[simp] theorem popTo_t (s : State) (rest : List Input) : (s.popTo rest).t = s.t := rfl
@[simp] theorem popTo_run (s : State) (rest : List Input) : (s.popTo rest).run = s.run := rfl
@[simp] theorem popTo_cfgPhase (s : State) (rest : List Input) : (s.popTo rest).cfgPhase = s.cfgPhase := rfl
@[simp] theorem popTo_hcount (s : State) (rest : List Input) : (s.popTo rest).hcount = s.hcount := rfl
@[simp] theorem popTo_savCmp (s : State) (rest : List Input) : (s.popTo rest).savCmp = s.savCmp := rfl
@[simp] theorem popTo_savCmpNext (s : State) (rest : List Input) : (s.popTo rest).savCmpNext = s.savCmpNext := rfl
@[simp] theorem popTo_display (s : State) (rest : List Input) : (s.popTo rest).display = s.display := rfl
@[simp] theorem popTo_currentLine (s : State) (rest : List Input) : (s.popTo rest).currentLine = s.currentLine := rfl
@[simp] theorem popTo_vsyncLevel (s : State) (rest : List Input) : (s.popTo rest).vsyncLevel = s.vsyncLevel := rfl
@[simp] theorem popTo_bandHead (s : State) (rest : List Input) : (s.popTo rest).bandHead = s.bandHead := rfl
@[simp] theorem popTo_bandTaken (s : State) (rest : List Input) : (s.popTo rest).bandTaken = s.bandTaken := rfl
@[simp] theorem popTo_currentBand (s : State) (rest : List Input) : (s.popTo rest).currentBand = s.currentBand := rfl
@[simp] theorem popTo_deferPending (s : State) (rest : List Input) : (s.popTo rest).deferPending = s.deferPending := rfl
@[simp] theorem popTo_dru (s : State) (rest : List Input) : (s.popTo rest).dru = s.dru := rfl
@[simp] theorem popTo_hookReq (s : State) (rest : List Input) : (s.popTo rest).hookReq = s.hookReq := rfl
@[simp] theorem popTo_rtok (s : State) (rest : List Input) : (s.popTo rest).rtok = s.rtok := rfl
@[simp] theorem popTo_ridx (s : State) (rest : List Input) : (s.popTo rest).ridx = s.ridx := rfl
@[simp] theorem popTo_workShape (s : State) (rest : List Input) : (s.popTo rest).workShape = s.workShape := rfl
@[simp] theorem popTo_dmaCount (s : State) (rest : List Input) : (s.popTo rest).dmaCount = s.dmaCount := rfl
@[simp] theorem popTo_dma (s : State) (rest : List Input) : (s.popTo rest).dma = s.dma := rfl
@[simp] theorem popTo_pixLatch (s : State) (rest : List Input) : (s.popTo rest).pixLatch = s.pixLatch := rfl
@[simp] theorem popTo_evt (s : State) (rest : List Input) : (s.popTo rest).evt = s.evt := rfl
@[simp] theorem popTo_clkCfgO (s : State) (rest : List Input) : (s.popTo rest).clkCfgO = s.clkCfgO := rfl
@[simp] theorem popTo_wb (s : State) (rest : List Input) : (s.popTo rest).wb = s.wb := rfl
@[simp] theorem popTo_sb (s : State) (rest : List Input) : (s.popTo rest).sb = s.sb := rfl
@[simp] theorem popTo_pins (s : State) (rest : List Input) : (s.popTo rest).pins = s.pins := rfl
@[simp] theorem popTo_htgRan (s : State) (rest : List Input) : (s.popTo rest).htgRan = s.htgRan := rfl
@[simp] theorem popTo_tickH (s : State) (rest : List Input) : (s.popTo rest).tickH = s.tickH := rfl
@[simp] theorem popTo_hostMem (s : State) (rest : List Input) : (s.popTo rest).hostMem = s.hostMem := rfl
@[simp] theorem popTo_hostEvt (s : State) (rest : List Input) : (s.popTo rest).hostEvt = s.hostEvt := rfl
@[simp] theorem popTo_rdData (s : State) (rest : List Input) : (s.popTo rest).rdData = s.rdData := rfl
@[simp] theorem popTo_hostVars (s : State) (rest : List Input) : (s.popTo rest).hostVars = s.hostVars := rfl
@[simp] theorem popTo_hostProg (s : State) (rest : List Input) : (s.popTo rest).hostProg = s.hostProg := rfl

/-! ### `configureStart` -/

@[simp] theorem configureStart_params (s : State) : (configureStart s).params = s.params := rfl
@[simp] theorem configureStart_schedule (s : State) : (configureStart s).schedule = s.schedule := rfl
@[simp] theorem configureStart_druTurn (s : State) : (configureStart s).druTurn = s.druTurn := rfl
@[simp] theorem configureStart_fault (s : State) : (configureStart s).fault = s.fault := rfl
@[simp] theorem configureStart_videoEn (s : State) : (configureStart s).videoEn = false := rfl
@[simp] theorem configureStart_syncEn (s : State) : (configureStart s).syncEn = false := rfl
@[simp] theorem configureStart_sh (s : State) : (configureStart s).sh = s.sh := rfl
@[simp] theorem configureStart_t (s : State) : (configureStart s).t = s.t := rfl
@[simp] theorem configureStart_run (s : State) : (configureStart s).run = s.run := rfl
@[simp] theorem configureStart_cfgPhase (s : State) : (configureStart s).cfgPhase = .drain := rfl
@[simp] theorem configureStart_hcount (s : State) : (configureStart s).hcount = s.hcount := rfl
@[simp] theorem configureStart_savCmp (s : State) : (configureStart s).savCmp = s.savCmp := rfl
@[simp] theorem configureStart_savCmpNext (s : State) : (configureStart s).savCmpNext = s.savCmpNext := rfl
@[simp] theorem configureStart_display (s : State) : (configureStart s).display = s.display := rfl
@[simp] theorem configureStart_currentLine (s : State) : (configureStart s).currentLine = s.currentLine := rfl
@[simp] theorem configureStart_vsyncLevel (s : State) : (configureStart s).vsyncLevel = s.vsyncLevel := rfl
@[simp] theorem configureStart_bandHead (s : State) : (configureStart s).bandHead = s.bandHead := rfl
@[simp] theorem configureStart_bandTaken (s : State) : (configureStart s).bandTaken = s.bandTaken := rfl
@[simp] theorem configureStart_currentBand (s : State) : (configureStart s).currentBand = s.currentBand := rfl
@[simp] theorem configureStart_deferPending (s : State) : (configureStart s).deferPending = s.deferPending := rfl
@[simp] theorem configureStart_dru (s : State) : (configureStart s).dru = s.dru := rfl
@[simp] theorem configureStart_hookReq (s : State) : (configureStart s).hookReq = s.hookReq := rfl
@[simp] theorem configureStart_rtok (s : State) : (configureStart s).rtok = s.rtok := rfl
@[simp] theorem configureStart_ridx (s : State) : (configureStart s).ridx = s.ridx := rfl
@[simp] theorem configureStart_workShape (s : State) : (configureStart s).workShape = s.workShape := rfl
@[simp] theorem configureStart_dmaCount (s : State) : (configureStart s).dmaCount = s.dmaCount := rfl
@[simp] theorem configureStart_dma (s : State) : (configureStart s).dma = s.dma := rfl
@[simp] theorem configureStart_pixLatch (s : State) : (configureStart s).pixLatch = s.pixLatch := rfl
@[simp] theorem configureStart_evt (s : State) : (configureStart s).evt = s.evt := rfl
@[simp] theorem configureStart_clkCfgO (s : State) : (configureStart s).clkCfgO = s.clkCfgO := rfl
@[simp] theorem configureStart_wb (s : State) : (configureStart s).wb = s.wb := rfl
@[simp] theorem configureStart_sb (s : State) : (configureStart s).sb = s.sb := rfl
@[simp] theorem configureStart_pins (s : State) : (configureStart s).pins = s.pins := rfl
@[simp] theorem configureStart_htgRan (s : State) : (configureStart s).htgRan = s.htgRan := rfl
@[simp] theorem configureStart_tickH (s : State) : (configureStart s).tickH = s.tickH := rfl
@[simp] theorem configureStart_hostMem (s : State) : (configureStart s).hostMem = s.hostMem := rfl
@[simp] theorem configureStart_hostEvt (s : State) : (configureStart s).hostEvt = s.hostEvt := rfl
@[simp] theorem configureStart_rdData (s : State) : (configureStart s).rdData = s.rdData := rfl
@[simp] theorem configureStart_hostVars (s : State) : (configureStart s).hostVars = s.hostVars := rfl
@[simp] theorem configureStart_hostProg (s : State) : (configureStart s).hostProg = s.hostProg := rfl

/-! ### `drainHalt` -/

@[simp] theorem drainHalt_params (s : State) : (drainHalt s).params = s.params := rfl
@[simp] theorem drainHalt_schedule (s : State) : (drainHalt s).schedule = s.schedule := rfl
@[simp] theorem drainHalt_druTurn (s : State) : (drainHalt s).druTurn = s.druTurn := rfl
@[simp] theorem drainHalt_fault (s : State) : (drainHalt s).fault = s.fault := rfl
@[simp] theorem drainHalt_videoEn (s : State) : (drainHalt s).videoEn = s.videoEn := rfl
@[simp] theorem drainHalt_syncEn (s : State) : (drainHalt s).syncEn = s.syncEn := rfl
@[simp] theorem drainHalt_sh (s : State) : (drainHalt s).sh = s.sh := rfl
@[simp] theorem drainHalt_t (s : State) : (drainHalt s).t = s.t := rfl
@[simp] theorem drainHalt_run (s : State) : (drainHalt s).run = false := rfl
@[simp] theorem drainHalt_cfgPhase (s : State) : (drainHalt s).cfgPhase = .quiesce := rfl
@[simp] theorem drainHalt_hcount (s : State) : (drainHalt s).hcount = 0 := rfl
@[simp] theorem drainHalt_savCmp (s : State) : (drainHalt s).savCmp = s.savCmp := rfl
@[simp] theorem drainHalt_savCmpNext (s : State) : (drainHalt s).savCmpNext = s.savCmpNext := rfl
@[simp] theorem drainHalt_display (s : State) : (drainHalt s).display = s.display := rfl
@[simp] theorem drainHalt_currentLine (s : State) : (drainHalt s).currentLine = s.currentLine := rfl
@[simp] theorem drainHalt_vsyncLevel (s : State) : (drainHalt s).vsyncLevel = s.vsyncLevel := rfl
@[simp] theorem drainHalt_bandHead (s : State) : (drainHalt s).bandHead = s.bandHead := rfl
@[simp] theorem drainHalt_bandTaken (s : State) : (drainHalt s).bandTaken = s.bandTaken := rfl
@[simp] theorem drainHalt_currentBand (s : State) : (drainHalt s).currentBand = s.currentBand := rfl
@[simp] theorem drainHalt_deferPending (s : State) : (drainHalt s).deferPending = s.deferPending := rfl
@[simp] theorem drainHalt_dru (s : State) : (drainHalt s).dru = s.dru := rfl
@[simp] theorem drainHalt_hookReq (s : State) : (drainHalt s).hookReq = s.hookReq := rfl
@[simp] theorem drainHalt_rtok (s : State) : (drainHalt s).rtok = s.rtok := rfl
@[simp] theorem drainHalt_ridx (s : State) : (drainHalt s).ridx = s.ridx := rfl
@[simp] theorem drainHalt_workShape (s : State) : (drainHalt s).workShape = s.workShape := rfl
@[simp] theorem drainHalt_dmaCount (s : State) : (drainHalt s).dmaCount = s.dmaCount := rfl
@[simp] theorem drainHalt_dma (s : State) : (drainHalt s).dma = s.dma := rfl
@[simp] theorem drainHalt_pixLatch (s : State) : (drainHalt s).pixLatch = s.pixLatch := rfl
@[simp] theorem drainHalt_evt (s : State) : (drainHalt s).evt = s.evt := rfl
@[simp] theorem drainHalt_clkCfgO (s : State) : (drainHalt s).clkCfgO = s.clkCfgO := rfl
@[simp] theorem drainHalt_wb (s : State) : (drainHalt s).wb = s.wb := rfl
@[simp] theorem drainHalt_sb (s : State) : (drainHalt s).sb = s.sb := rfl
@[simp] theorem drainHalt_pins (s : State) : (drainHalt s).pins = s.pins := rfl
@[simp] theorem drainHalt_htgRan (s : State) : (drainHalt s).htgRan = s.htgRan := rfl
@[simp] theorem drainHalt_tickH (s : State) : (drainHalt s).tickH = s.tickH := rfl
@[simp] theorem drainHalt_hostMem (s : State) : (drainHalt s).hostMem = s.hostMem := rfl
@[simp] theorem drainHalt_hostEvt (s : State) : (drainHalt s).hostEvt = s.hostEvt := rfl
@[simp] theorem drainHalt_rdData (s : State) : (drainHalt s).rdData = s.rdData := rfl
@[simp] theorem drainHalt_hostVars (s : State) : (drainHalt s).hostVars = s.hostVars := rfl
@[simp] theorem drainHalt_hostProg (s : State) : (drainHalt s).hostProg = s.hostProg := rfl

/-! ### `sample` -/

@[simp] theorem sample_params (s : State) : (sample s).params = s.params := rfl
@[simp] theorem sample_schedule (s : State) : (sample s).schedule = s.schedule := rfl
@[simp] theorem sample_druTurn (s : State) : (sample s).druTurn = s.druTurn := rfl
@[simp] theorem sample_fault (s : State) : (sample s).fault = s.fault := rfl
@[simp] theorem sample_videoEn (s : State) : (sample s).videoEn = s.videoEn := rfl
@[simp] theorem sample_syncEn (s : State) : (sample s).syncEn = s.syncEn := rfl
@[simp] theorem sample_sh (s : State) : (sample s).sh = s.sh := rfl
@[simp] theorem sample_t (s : State) : (sample s).t = s.t := rfl
@[simp] theorem sample_run (s : State) : (sample s).run = s.run := rfl
@[simp] theorem sample_cfgPhase (s : State) : (sample s).cfgPhase = s.cfgPhase := rfl
@[simp] theorem sample_hcount (s : State) : (sample s).hcount = s.hcount := rfl
@[simp] theorem sample_savCmp (s : State) : (sample s).savCmp = s.savCmp := rfl
@[simp] theorem sample_savCmpNext (s : State) : (sample s).savCmpNext = s.savCmpNext := rfl
@[simp] theorem sample_display (s : State) : (sample s).display = s.display := rfl
@[simp] theorem sample_currentLine (s : State) : (sample s).currentLine = s.currentLine := rfl
@[simp] theorem sample_vsyncLevel (s : State) : (sample s).vsyncLevel = s.vsyncLevel := rfl
@[simp] theorem sample_bandHead (s : State) : (sample s).bandHead = s.bandHead := rfl
@[simp] theorem sample_bandTaken (s : State) : (sample s).bandTaken = s.bandTaken := rfl
@[simp] theorem sample_currentBand (s : State) : (sample s).currentBand = s.currentBand := rfl
@[simp] theorem sample_deferPending (s : State) : (sample s).deferPending = s.deferPending := rfl
@[simp] theorem sample_dru (s : State) : (sample s).dru = s.dru := rfl
@[simp] theorem sample_hookReq (s : State) : (sample s).hookReq = s.hookReq := rfl
@[simp] theorem sample_rtok (s : State) : (sample s).rtok = s.rtok := rfl
@[simp] theorem sample_ridx (s : State) : (sample s).ridx = s.ridx := rfl
@[simp] theorem sample_workShape (s : State) : (sample s).workShape = s.workShape := rfl
@[simp] theorem sample_dmaCount (s : State) : (sample s).dmaCount = s.dmaCount := rfl
@[simp] theorem sample_dma (s : State) : (sample s).dma = s.dma := rfl
@[simp] theorem sample_pixLatch (s : State) : (sample s).pixLatch = s.pixLatch := rfl
@[simp] theorem sample_evt (s : State) : (sample s).evt = s.evt := rfl
@[simp] theorem sample_clkCfgO (s : State) : (sample s).clkCfgO = s.clkCfgO := rfl
@[simp] theorem sample_wb (s : State) : (sample s).wb = s.wb := rfl
@[simp] theorem sample_sb (s : State) : (sample s).sb = s.sb := rfl
@[simp] theorem sample_pins (s : State) : (sample s).pins = pinsOf s := rfl
@[simp] theorem sample_htgRan (s : State) : (sample s).htgRan = s.htgRan := rfl
@[simp] theorem sample_tickH (s : State) : (sample s).tickH = s.tickH := rfl
@[simp] theorem sample_hostMem (s : State) : (sample s).hostMem = s.hostMem := rfl
@[simp] theorem sample_hostEvt (s : State) : (sample s).hostEvt = (s.hostEvt || s.evt) := rfl
@[simp] theorem sample_rdData (s : State) : (sample s).rdData = s.rdData := rfl
@[simp] theorem sample_hostVars (s : State) : (sample s).hostVars = s.hostVars := rfl
@[simp] theorem sample_hostProg (s : State) : (sample s).hostProg = s.hostProg := rfl

/-! ### `hookReqStep` -/

@[simp] theorem hookReqStep_params (s : State) : (hookReqStep s).params = s.params := rfl
@[simp] theorem hookReqStep_schedule (s : State) : (hookReqStep s).schedule = s.schedule := rfl
@[simp] theorem hookReqStep_druTurn (s : State) : (hookReqStep s).druTurn = s.druTurn := rfl
@[simp] theorem hookReqStep_fault (s : State) : (hookReqStep s).fault = s.fault := rfl
@[simp] theorem hookReqStep_videoEn (s : State) : (hookReqStep s).videoEn = s.videoEn := rfl
@[simp] theorem hookReqStep_syncEn (s : State) : (hookReqStep s).syncEn = s.syncEn := rfl
@[simp] theorem hookReqStep_sh (s : State) : (hookReqStep s).sh = s.sh := rfl
@[simp] theorem hookReqStep_t (s : State) : (hookReqStep s).t = s.t := rfl
@[simp] theorem hookReqStep_run (s : State) : (hookReqStep s).run = s.run := rfl
@[simp] theorem hookReqStep_cfgPhase (s : State) : (hookReqStep s).cfgPhase = s.cfgPhase := rfl
@[simp] theorem hookReqStep_hcount (s : State) : (hookReqStep s).hcount = s.hcount := rfl
@[simp] theorem hookReqStep_savCmp (s : State) : (hookReqStep s).savCmp = s.savCmp := rfl
@[simp] theorem hookReqStep_savCmpNext (s : State) : (hookReqStep s).savCmpNext = s.savCmpNext := rfl
@[simp] theorem hookReqStep_display (s : State) : (hookReqStep s).display = s.display := rfl
@[simp] theorem hookReqStep_currentLine (s : State) : (hookReqStep s).currentLine = s.currentLine := rfl
@[simp] theorem hookReqStep_vsyncLevel (s : State) : (hookReqStep s).vsyncLevel = s.vsyncLevel := rfl
@[simp] theorem hookReqStep_bandHead (s : State) : (hookReqStep s).bandHead = s.bandHead := rfl
@[simp] theorem hookReqStep_bandTaken (s : State) : (hookReqStep s).bandTaken = s.bandTaken := rfl
@[simp] theorem hookReqStep_currentBand (s : State) : (hookReqStep s).currentBand = s.currentBand := rfl
@[simp] theorem hookReqStep_deferPending (s : State) : (hookReqStep s).deferPending = s.deferPending := rfl
@[simp] theorem hookReqStep_dru (s : State) : (hookReqStep s).dru = { s.dru with phase := .hookWait } := rfl
@[simp] theorem hookReqStep_hookReq (s : State) : (hookReqStep s).hookReq = true := rfl
@[simp] theorem hookReqStep_rtok (s : State) : (hookReqStep s).rtok = s.rtok := rfl
@[simp] theorem hookReqStep_ridx (s : State) : (hookReqStep s).ridx = s.ridx := rfl
@[simp] theorem hookReqStep_workShape (s : State) : (hookReqStep s).workShape = s.workShape := rfl
@[simp] theorem hookReqStep_dmaCount (s : State) : (hookReqStep s).dmaCount = s.dmaCount := rfl
@[simp] theorem hookReqStep_dma (s : State) : (hookReqStep s).dma = s.dma := rfl
@[simp] theorem hookReqStep_pixLatch (s : State) : (hookReqStep s).pixLatch = s.pixLatch := rfl
@[simp] theorem hookReqStep_evt (s : State) : (hookReqStep s).evt = s.evt := rfl
@[simp] theorem hookReqStep_clkCfgO (s : State) : (hookReqStep s).clkCfgO = s.clkCfgO := rfl
@[simp] theorem hookReqStep_wb (s : State) : (hookReqStep s).wb = s.wb := rfl
@[simp] theorem hookReqStep_sb (s : State) : (hookReqStep s).sb = s.sb := rfl
@[simp] theorem hookReqStep_pins (s : State) : (hookReqStep s).pins = s.pins := rfl
@[simp] theorem hookReqStep_htgRan (s : State) : (hookReqStep s).htgRan = s.htgRan := rfl
@[simp] theorem hookReqStep_tickH (s : State) : (hookReqStep s).tickH = s.tickH := rfl
@[simp] theorem hookReqStep_hostMem (s : State) : (hookReqStep s).hostMem = s.hostMem := rfl
@[simp] theorem hookReqStep_hostEvt (s : State) : (hookReqStep s).hostEvt = s.hostEvt := rfl
@[simp] theorem hookReqStep_rdData (s : State) : (hookReqStep s).rdData = s.rdData := rfl
@[simp] theorem hookReqStep_hostVars (s : State) : (hookReqStep s).hostVars = s.hostVars := rfl
@[simp] theorem hookReqStep_hostProg (s : State) : (hookReqStep s).hostProg = s.hostProg := rfl

/-! ### `advance`: only `hcount` and `sav_cmp` -/

@[simp] theorem advance_params (h : Half) (s : State) : (advance h s).params = s.params := by
  unfold advance; split <;> rfl
@[simp] theorem advance_schedule (h : Half) (s : State) : (advance h s).schedule = s.schedule := by
  unfold advance; split <;> rfl
@[simp] theorem advance_druTurn (h : Half) (s : State) : (advance h s).druTurn = s.druTurn := by
  unfold advance; split <;> rfl
@[simp] theorem advance_fault (h : Half) (s : State) : (advance h s).fault = s.fault := by
  unfold advance; split <;> rfl
@[simp] theorem advance_videoEn (h : Half) (s : State) : (advance h s).videoEn = s.videoEn := by
  unfold advance; split <;> rfl
@[simp] theorem advance_syncEn (h : Half) (s : State) : (advance h s).syncEn = s.syncEn := by
  unfold advance; split <;> rfl
@[simp] theorem advance_sh (h : Half) (s : State) : (advance h s).sh = s.sh := by
  unfold advance; split <;> rfl
@[simp] theorem advance_t (h : Half) (s : State) : (advance h s).t = s.t := by
  unfold advance; split <;> rfl
@[simp] theorem advance_run (h : Half) (s : State) : (advance h s).run = s.run := by
  unfold advance; split <;> rfl
@[simp] theorem advance_cfgPhase (h : Half) (s : State) : (advance h s).cfgPhase = s.cfgPhase := by
  unfold advance; split <;> rfl
@[simp] theorem advance_savCmpNext (h : Half) (s : State) : (advance h s).savCmpNext = s.savCmpNext := by
  unfold advance; split <;> rfl
@[simp] theorem advance_display (h : Half) (s : State) : (advance h s).display = s.display := by
  unfold advance; split <;> rfl
@[simp] theorem advance_currentLine (h : Half) (s : State) : (advance h s).currentLine = s.currentLine := by
  unfold advance; split <;> rfl
@[simp] theorem advance_vsyncLevel (h : Half) (s : State) : (advance h s).vsyncLevel = s.vsyncLevel := by
  unfold advance; split <;> rfl
@[simp] theorem advance_bandHead (h : Half) (s : State) : (advance h s).bandHead = s.bandHead := by
  unfold advance; split <;> rfl
@[simp] theorem advance_bandTaken (h : Half) (s : State) : (advance h s).bandTaken = s.bandTaken := by
  unfold advance; split <;> rfl
@[simp] theorem advance_currentBand (h : Half) (s : State) : (advance h s).currentBand = s.currentBand := by
  unfold advance; split <;> rfl
@[simp] theorem advance_deferPending (h : Half) (s : State) : (advance h s).deferPending = s.deferPending := by
  unfold advance; split <;> rfl
@[simp] theorem advance_dru (h : Half) (s : State) : (advance h s).dru = s.dru := by
  unfold advance; split <;> rfl
@[simp] theorem advance_hookReq (h : Half) (s : State) : (advance h s).hookReq = s.hookReq := by
  unfold advance; split <;> rfl
@[simp] theorem advance_rtok (h : Half) (s : State) : (advance h s).rtok = s.rtok := by
  unfold advance; split <;> rfl
@[simp] theorem advance_ridx (h : Half) (s : State) : (advance h s).ridx = s.ridx := by
  unfold advance; split <;> rfl
@[simp] theorem advance_workShape (h : Half) (s : State) : (advance h s).workShape = s.workShape := by
  unfold advance; split <;> rfl
@[simp] theorem advance_dmaCount (h : Half) (s : State) : (advance h s).dmaCount = s.dmaCount := by
  unfold advance; split <;> rfl
@[simp] theorem advance_dma (h : Half) (s : State) : (advance h s).dma = s.dma := by
  unfold advance; split <;> rfl
@[simp] theorem advance_pixLatch (h : Half) (s : State) : (advance h s).pixLatch = s.pixLatch := by
  unfold advance; split <;> rfl
@[simp] theorem advance_evt (h : Half) (s : State) : (advance h s).evt = s.evt := by
  unfold advance; split <;> rfl
@[simp] theorem advance_clkCfgO (h : Half) (s : State) : (advance h s).clkCfgO = s.clkCfgO := by
  unfold advance; split <;> rfl
@[simp] theorem advance_wb (h : Half) (s : State) : (advance h s).wb = s.wb := by
  unfold advance; split <;> rfl
@[simp] theorem advance_sb (h : Half) (s : State) : (advance h s).sb = s.sb := by
  unfold advance; split <;> rfl
@[simp] theorem advance_pins (h : Half) (s : State) : (advance h s).pins = s.pins := by
  unfold advance; split <;> rfl
@[simp] theorem advance_htgRan (h : Half) (s : State) : (advance h s).htgRan = s.htgRan := by
  unfold advance; split <;> rfl
@[simp] theorem advance_tickH (h : Half) (s : State) : (advance h s).tickH = s.tickH := by
  unfold advance; split <;> rfl
@[simp] theorem advance_hostMem (h : Half) (s : State) : (advance h s).hostMem = s.hostMem := by
  unfold advance; split <;> rfl
@[simp] theorem advance_hostEvt (h : Half) (s : State) : (advance h s).hostEvt = s.hostEvt := by
  unfold advance; split <;> rfl
@[simp] theorem advance_rdData (h : Half) (s : State) : (advance h s).rdData = s.rdData := by
  unfold advance; split <;> rfl
@[simp] theorem advance_hostVars (h : Half) (s : State) : (advance h s).hostVars = s.hostVars := by
  unfold advance; split <;> rfl
@[simp] theorem advance_hostProg (h : Half) (s : State) : (advance h s).hostProg = s.hostProg := by
  unfold advance; split <;> rfl

end Sys2Proof.Machine
end

