-- ==== Sys2Proof/Laws/Ops.lean ====
section
/-! SUPPORT. What each shared operation can do, said once. -/

namespace Sys2Proof.Machine

/-! ### Sequencing -/

theorem bind_eq_ok_iff {α β ε : Type} {x : Except ε α} {f : α → Except ε β} {b : β} :
    x.bind f = .ok b ↔ ∃ a, x = .ok a ∧ f a = .ok b := by
  cases x <;> simp [Except.bind]

theorem bind_eq_error_iff {α β ε : Type} {x : Except ε α} {f : α → Except ε β} {e : ε} :
    x.bind f = .error e ↔ x = .error e ∨ ∃ a, x = .ok a ∧ f a = .error e := by
  cases x <;> simp [Except.bind]

@[simp] theorem ok_bind {α β ε : Type} (a : α) (f : α → Except ε β) : (Except.ok a).bind f = f a := rfl

@[simp] theorem error_bind {α β ε : Type} (e : ε) (f : α → Except ε β) :
    (Except.error e : Except ε α).bind f = .error e := rfl

/-! ### Steps of agents -/

theorem agentStep_ok {s : State} (h : s.fault = none) (t : State) : agentStep s (.ok t) = .next t := by
  simp [agentStep, h]

theorem agentStep_error {s : State} (h : s.fault = none) (c : Fault) :
    agentStep s (.error c) = .next (s.raise c) := by
  simp [agentStep, h]

theorem agentStep_stopped {s : State} {c : Fault} (h : s.fault = some c) (body : Except Fault State) :
    agentStep s body = .fault c := by
  simp [agentStep, h]

/-- A step of an agent that answers a next state: its writes, or a fault that changes nothing else. -/
theorem agentStep_eq_next {s t : State} {body : Except Fault State} (h : agentStep s body = .next t) :
    s.fault = none ∧ (body = .ok t ∨ ∃ c, body = .error c ∧ t = s.raise c) := by
  unfold agentStep at h
  split at h
  · simp at h
  · rename_i hf
    split at h
    · rename_i u
      simp only [Host.Outcome.next.injEq] at h
      exact ⟨hf, .inl (by rw [h])⟩
    · rename_i c
      simp only [Host.Outcome.next.injEq] at h
      exact ⟨hf, .inr ⟨c, rfl, h.symm⟩⟩

theorem agentStep_ne_refused (s : State) (body : Except Fault State) (r : Refusal) :
    agentStep s body ≠ .refused r := by
  unfold agentStep
  split
  · simp
  · split <;> simp

theorem whenEnabled_true (s : State) (body : Except Fault State) : whenEnabled true s body = body := rfl

theorem whenEnabled_false (s : State) (body : Except Fault State) : whenEnabled false s body = .ok s := rfl

/-! ### Node reads -/

/-- A host memory read: aligned, mapped, and the little-endian word host memory holds (R66). -/
theorem memRead_eq_ok_iff {s : State} {a : Nat} {w : Word} :
    memRead s a = .ok w ↔ a % 4 = 0 ∧ isMapped s.params a = true
      ∧ w = wordOf (hostByte s.hostMem a) (hostByte s.hostMem (a + 1)) (hostByte s.hostMem (a + 2))
          (hostByte s.hostMem (a + 3)) := by
  unfold memRead
  by_cases h1 : a % 4 = 0
  · cases h2 : isMapped s.params a <;> simp [h1, eq_comm]
  · simp [h1]

/-- A node read is its three word reads (R70). -/
theorem readNode_eq_ok_iff {s : State} {p : Word} {n : Band} :
    readNode s p = .ok n ↔ memRead s p.toNat = .ok n.rast ∧ memRead s (p.toNat + 4) = .ok n.count
      ∧ memRead s (p.toNat + 8) = .ok n.next := by
  unfold readNode
  simp only [bind_eq_ok_iff, Except.ok.injEq]
  constructor
  · rintro ⟨a, ha, b, hb, c, hc, rfl⟩
    exact ⟨ha, hb, hc⟩
  · rintro ⟨ha, hb, hc⟩
    exact ⟨_, ha, _, hb, _, hc, rfl⟩

/-! ### The display state's bits (R27) -/

@[simp] theorem displays_eq (d : DisplayState) : d.displays = (d == .active || d == .finishing) := by
  cases d <;> rfl

@[simp] theorem renders_eq (d : DisplayState) : d.renders = (d == .starting || d == .active) := by
  cases d <;> rfl

/-! ### Well-formed timings (R239) -/

theorem wf_iff (x : Timing) : x.wf = true ↔
    1 ≤ x.syncPixels.toNat ∧ 1 ≤ x.backPorchPixels.toNat ∧ 1 ≤ x.videoPixels.toNat
      ∧ x.videoLead.toNat ≤ x.syncPixels.toNat + x.backPorchPixels.toNat
      ∧ x.syncPixels.toNat + x.backPorchPixels.toNat + x.videoPixels.toNat + 1 ≤ x.linePixels.toNat
      ∧ 1 ≤ x.vsyncStartLine.toNat ∧ x.vsyncStartLine.toNat < x.vsyncEndLine.toNat
      ∧ x.vsyncEndLine.toNat + 1 < x.videoStartLine.toNat
      ∧ x.videoStartLine.toNat + 1 < x.videoEndLine.toNat := by
  simp only [Timing.wf, Bool.and_eq_true, decide_eq_true_eq, and_assoc]
  rfl

/-- A node read that fails raises one of the two faults of R66. -/
theorem readNode_eq_error {s : State} {p : Word} {c : Fault}
    (e : readNode s p = .error c) : c = .bandMisaligned ∨ c = .busError := by
  have mr : ∀ a, memRead s a = .error c → c = .bandMisaligned ∨ c = .busError := by
    intro a h; unfold memRead at h; split at h
    · cases h; simp
    · split at h
      · cases h; simp
      · cases h
  unfold readNode at e
  simp only [bind_eq_error_iff] at e
  rcases e with e | ⟨_, _, e | ⟨_, _, e | ⟨_, _, e⟩⟩⟩
  · exact mr _ e
  · exact mr _ e
  · exact mr _ e
  · cases e

/-- The SAV point of an accepted timing, as a 16-bit position (R133, R155). -/
theorem toNat_savPoint (x : Timing) (o : Half) (h : x.wf = true)
    (hlt : x.hstart + o.toNat < x.hend + x.videoLead.toNat) :
    (BitVec.ofInt 16 (savPoint x o)).toNat + x.videoLead.toNat = x.hstart + o.toNat := by
  obtain ⟨w1,w2,w3,w4,w5,w6,w7,w8,w9⟩ := (wf_iff x).1 h
  have := x.linePixels.isLt
  unfold Timing.hend Timing.hstart at *
  simp only [savPoint, Timing.hstart, BitVec.toNat_ofInt]
  simp
  omega

end Sys2Proof.Machine
end

