-- ==== Sys2Proof/Laws/Events.lean ====
section
/-! SUPPORT. What each sub-event of the TICK and each guarded step can do when it answers a state: one inversion lemma each,
which later proofs cite instead of unfolding. -/

namespace Sys2Proof.Machine

/-- SAV leaves the state, or arms a stream (R170). -/
theorem sav_eq_ok {h : Half} {s t : State} (e : sav h s = .ok t) :
    t = s ∨ (h = s.savCmp ∧ s.display.displays = true ∧ s.dmaCount ≠ 0 ∧ s.dma.busy = false
      ∧ h.toNat + s.t.videoLead.toNat + s.dmaCount.toNat ≤ s.t.linePixels.toNat
      ∧ t = { s with dma := armedStream s }) := by
  unfold sav at e
  split at e
  · exact .inl (by simpa using e.symm)
  · split at e
    · exact .inl (by simpa using e.symm)
    · split at e
      · exact .inl (by simpa using e.symm)
      · split at e
        · simp at e
        · split at e
          · simp at e
          · right
            rename_i h1 h2 h3 h4 h5
            exact ⟨by simpa using h1, by revert h2; cases s.display.displays <;> simp, h3, by simpa using h4, by omega,
              by simpa using e.symm⟩

/-- BEAT leaves the state, counts the delay down, or moves one byte (R172). -/
theorem beat_eq_ok {s t : State} (e : beat s = .ok t) :
    (s.dma.busy = false ∧ t = s)
      ∨ (s.dma.busy = true ∧ s.dma.delay ≠ 0 ∧ t = { s with dma := { s.dma with delay := s.dma.delay - 1 } })
      ∨ (s.dma.busy = true ∧ s.dma.delay = 0 ∧ ∃ b, s.sb.read s.dma.idx.toNat = some b
          ∧ t = { s with pixLatch := b, dma := beatStream s.dma }) := by
  unfold beat at e
  split at e
  · exact .inl ⟨‹_›, by simpa using e.symm⟩
  · split at e
    · exact .inr (.inl ⟨by simp_all, ‹_›, by simpa using e.symm⟩)
    · split at e
      · simp at e
      · exact .inr (.inr ⟨by simp_all, by simp_all, _, ‹_›, by simpa using e.symm⟩)

/-- The STARTING arm's next state (R154). -/
theorem startingArm_eq_ok {s t : State} (e : startingArm s = .ok t) :
    ∃ n, (if s.bandHead = 0 then n = Band.empty else readNode s s.bandHead = .ok n)
      ∧ t = { s with currentBand := n, bandTaken := true, display := .starting } := by
  unfold startingArm at e
  split at e
  · exact ⟨Band.empty, by rw [if_pos ‹_›], by simpa using e.symm⟩
  · obtain ⟨n, hn, e⟩ := bind_eq_ok_iff.1 e
    exact ⟨n, by rw [if_neg ‹_›]; exact hn, by simpa using e.symm⟩

/-- The arm of EAV for each line (R151). -/
theorem eavArm_eq_ok {s t : State} (e : eavArm s = .ok t) :
    (s.currentLine = 0 ∧ t = { s with display := .blank })
      ∨ (s.currentLine ≠ 0 ∧ (s.currentLine = s.t.vsyncStartLine ∨ s.currentLine = s.t.vsyncEndLine)
          ∧ t = { s with vsyncLevel := !s.vsyncLevel })
      ∨ (s.currentLine ≠ 0 ∧ s.currentLine.toNat + 1 = s.t.videoStartLine.toNat ∧ startingArm s = .ok t)
      ∨ (s.currentLine ≠ 0 ∧ s.currentLine = s.t.videoStartLine ∧ t = { s with display := .active })
      ∨ (s.currentLine ≠ 0 ∧ s.currentLine ≠ s.t.videoStartLine
          ∧ s.currentLine.toNat + 1 = s.t.videoEndLine.toNat ∧ t = { s with display := .finishing })
      ∨ (s.currentLine ≠ 0 ∧ s.currentLine ≠ s.t.vsyncStartLine ∧ s.currentLine ≠ s.t.vsyncEndLine
          ∧ s.currentLine.toNat + 1 ≠ s.t.videoStartLine.toNat ∧ s.currentLine ≠ s.t.videoStartLine
          ∧ s.currentLine.toNat + 1 ≠ s.t.videoEndLine.toNat ∧ t = s) := by
  unfold eavArm at e
  simp only at e
  split at e
  · exact .inl ⟨‹_›, by simpa using e.symm⟩
  · split at e
    · exact .inr (.inl ⟨‹_›, ‹_›, by simpa using e.symm⟩)
    · split at e
      · exact .inr (.inr (.inl ⟨‹_›, ‹_›, e⟩))
      · split at e
        · exact .inr (.inr (.inr (.inl ⟨‹_›, ‹_›, by simpa using e.symm⟩)))
        · split at e
          · exact .inr (.inr (.inr (.inr (.inl ⟨‹_›, ‹_›, ‹_›, by simpa using e.symm⟩))))
          · refine .inr (.inr (.inr (.inr (.inr ⟨‹_›, ?_, ?_, ‹_›, ‹_›, ‹_›, by simpa using e.symm⟩))))
            · tauto
            · tauto

/-- The state EAV's arm starts from (R151 sub-steps 1 to 3). -/
def eavBegin (s : State) : State :=
  { s with deferPending := true, savCmpNext := BitVec.ofInt 16 (savPoint s.t s.workShape.offset), evt := true }

/-- EAV's next state (R151). -/
theorem eav_eq_ok {s t : State} (e : eav s = .ok t) :
    savPoint s.t s.workShape.offset < s.t.hend
      ∧ ∃ u, eavArm (eavBegin s) = .ok u ∧ t = { u with currentLine := nextLine s.t s.currentLine } := by
  unfold eav at e
  simp only at e
  split at e
  · simp at e
  · obtain ⟨u, hu, e⟩ := bind_eq_ok_iff.1 e
    exact ⟨by omega, u, hu, by simpa using e.symm⟩

/-- An EAV that answers a state, by the fields it may write (R151, R158): everything else stays. -/
theorem eav_frame {s t : State} (e : eav s = .ok t) :
    ∃ d v b k, t = { s with
      deferPending := true, savCmpNext := BitVec.ofInt 16 (savPoint s.t s.workShape.offset), evt := true,
      display := d, vsyncLevel := v, currentBand := b, bandTaken := k,
      currentLine := nextLine s.t s.currentLine } := by
  obtain ⟨-, u, hu, rfl⟩ := eav_eq_ok e
  rcases eavArm_eq_ok hu with ⟨-, rfl⟩ | ⟨-, -, rfl⟩ | ⟨-, -, h⟩ | ⟨-, -, rfl⟩ | ⟨-, -, -, rfl⟩ |
    ⟨-, -, -, -, -, -, rfl⟩
  · exact ⟨_, _, _, _, rfl⟩
  · exact ⟨_, _, _, _, rfl⟩
  · obtain ⟨n, -, rfl⟩ := startingArm_eq_ok h
    exact ⟨_, _, _, _, rfl⟩
  · exact ⟨_, _, _, _, rfl⟩
  · exact ⟨_, _, _, _, rfl⟩
  · exact ⟨_, _, _, _, rfl⟩

theorem eavAt_eq_ok {h : Half} {s t : State} (e : eavAt h s = .ok t) :
    (h.toNat = s.t.hend ∧ eav s = .ok t) ∨ (h.toNat ≠ s.t.hend ∧ t = s) := by
  unfold eavAt at e
  split at e
  · exact .inl ⟨‹_›, e⟩
  · exact .inr ⟨‹_›, by simpa using e.symm⟩

/-- The generator is its four sub-events (R130). -/
theorem generate_eq_ok {s t : State} (e : generate s = .ok t) :
    ∃ s1 s2 s3, sav s.hcount s.latchH = .ok s1 ∧ beat s1 = .ok s2 ∧ eavAt s.hcount s2 = .ok s3
      ∧ t = advance s.hcount s3 := by
  unfold generate at e
  obtain ⟨s1, h1, e⟩ := bind_eq_ok_iff.1 e
  obtain ⟨s2, h2, e⟩ := bind_eq_ok_iff.1 e
  obtain ⟨s3, h3, e⟩ := bind_eq_ok_iff.1 e
  exact ⟨s1, s2, s3, h1, h2, h3, by simpa using e.symm⟩

/-- CFG_LOAD in QUIESCE waits or loads (R238). -/
theorem cfgLoad_eq_ok {s t : State} (e : cfgLoad s = .ok t) :
    (loadReady s = false ∧ t = s) ∨ (loadReady s = true ∧ s.sh.wf = true ∧ t = loadTiming s) := by
  unfold cfgLoad at e
  split at e
  · exact .inl ⟨‹_›, by simpa using e.symm⟩
  · split at e
    · simp at e
    · exact .inr ⟨by simp_all, by simp_all, by simpa using e.symm⟩

/-- Sub-steps 2 to 4 of a TICK (R130). -/
theorem tickEvents_eq_ok {s t : State} (e : tickEvents s = .ok t) :
    (drainReady s = true ∧ t = drainHalt s)
      ∨ (s.cfgPhase = .quiesce ∧ cfgLoad s = .ok t)
      ∨ (drainReady s = false ∧ s.cfgPhase ≠ .quiesce ∧ s.run = true ∧ generate s = .ok t)
      ∨ (drainReady s = false ∧ s.cfgPhase ≠ .quiesce ∧ s.run = false ∧ t = s) := by
  unfold tickEvents at e
  split at e
  · exact .inl ⟨‹_›, by simpa using e.symm⟩
  · split at e
    · exact .inr (.inl ⟨‹_›, e⟩)
    · split at e
      · exact .inr (.inr (.inl ⟨by simp_all, ‹_›, ‹_›, e⟩))
      · exact .inr (.inr (.inr ⟨by simp_all, ‹_›, by simp_all, by simpa using e.symm⟩))

/-! ### The deferred render unit -/

theorem copyStep_eq_ok {s t : State} (e : copyStep s = .ok t) :
    (s.dru.copyIdx.toNat < copyWords s.dru ∧ ∃ w, readWord s.wb s.dru.copyIdx.toNat = some w
        ∧ t = { s with
          sb := writeWord s.sb s.dru.copyIdx.toNat w
          dru := { s.dru with copyIdx := s.dru.copyIdx + 1 } })
      ∨ (copyWords s.dru ≤ s.dru.copyIdx.toNat ∧ t = s.toPhase .tail) := by
  unfold copyStep at e
  split at e
  · left
    split at e
    · simp at e
    · exact ⟨‹_›, _, ‹_›, by simpa using e.symm⟩
  · exact .inr ⟨by omega, by simpa using e.symm⟩

theorem tailStep_eq_ok {s t : State} (e : tailStep s = .ok t) :
    ∃ sb, copyBytes s.wb (s.dru.copyLen.toNat - 4 * copyWords s.dru) (4 * copyWords s.dru) s.sb = some sb
      ∧ t = { s.toPhase .term with sb := sb } := by
  unfold tailStep at e
  split at e
  · simp at e
  · exact ⟨_, ‹_›, by simpa using e.symm⟩

theorem schedStep_eq_ok {s t : State} (e : schedStep s = .ok t) :
    (s.currentBand.count ≠ 0 ∧ s.currentBand.rast ≠ 0 ∧ t = requestLine s)
      ∨ (s.currentBand.count = 0 ∧ s.currentBand.next ≠ 0
          ∧ ∃ n, readNode s s.currentBand.next = .ok n ∧ t = { s with currentBand := n })
      ∨ (s.currentBand.count = 0 ∧ s.currentBand.next = 0 ∧ t = s.toPhase .idle) := by
  unfold schedStep at e
  split at e
  · split at e
    · simp at e
    · exact .inl ⟨‹_›, ‹_›, by simpa using e.symm⟩
  · right
    split at e
    · obtain ⟨n, hn, e⟩ := bind_eq_ok_iff.1 e
      exact .inl ⟨by simp_all, ‹_›, n, hn, by simpa using e.symm⟩
    · exact .inr ⟨by simp_all, by simp_all, by simpa using e.symm⟩

/-! ### The rasterizer port -/

theorem wb8Step_eq_ok {i : Half} {b : Byte} {s t : State} (e : wb8Step i b s = .ok t) :
    i.toNat < s.params.bufBytes ∧ t = { s with wb := s.wb.write i.toNat b } := by
  unfold wb8Step at e
  split at e
  · simp at e
  · exact ⟨by omega, by simpa using e.symm⟩

theorem wb32Step_eq_ok {i : BitVec 14} {w : Word} {s t : State} (e : wb32Step i w s = .ok t) :
    4 * i.toNat + 3 < s.params.bufBytes ∧ t = { s with wb := writeWord s.wb i.toNat w } := by
  unfold wb32Step windexByte at e
  split at e
  · simp at e
  · exact ⟨by omega, by simpa using e.symm⟩

theorem respStep_eq_ok {d : Word} {s t : State} (e : respStep d s = .ok t) :
    (responseShape d).length.toNat < s.params.bufBytes
      ∧ t = { s.toPhase .idle with workShape := responseShape d } := by
  unfold respStep at e
  split at e
  · simp at e
  · have : 0 < s.params.bufBytes := by simp [Params.bufBytes]
    exact ⟨by omega, by simpa using e.symm⟩

/-- The faults of EAV (R151, R154). -/
theorem eav_eq_error {s : State} {c : Fault} (e : eav s = .error c) :
    c = .savRange ∨ c = .bandMisaligned ∨ c = .busError := by
  unfold eav at e
  simp only at e
  split at e
  · cases e; simp
  · rcases bind_eq_error_iff.1 e with e | ⟨_, _, e⟩
    · unfold eavArm at e
      simp only at e
      (repeat' split at e) <;> try cases e
      unfold startingArm at e
      split at e
      · cases e
      · rcases bind_eq_error_iff.1 e with e | ⟨_, _, e⟩
        · exact .inr (readNode_eq_error e)
        · cases e
    · cases e

/-- The faults of SAV (R170). -/
theorem sav_eq_error {s : State} {x : Half} {c : Fault} (e : sav x s = .error c) :
    (c = .dmaOverlap ∧ x = s.savCmp ∧ s.dma.busy = true) ∨ c = .dmaPastLine := by
  unfold sav at e
  (repeat' split at e) <;> cases e <;> simp_all

end Sys2Proof.Machine
end

