-- ==== Sys2Proof/Laws/Exec.lean ====
section
/-! SUPPORT. Every operation but RESET is one step of an agent: `exec` said once as `agentStep` over the operation's writes,
with what follows for all of them. -/

namespace Sys2Proof.Machine

/-- A write that is dropped while `CFG_BUSY = 1`. -/
def unlessBusy (s t : State) : Except Fault State := .ok (if cfgBusy s then s else t)

/-- The writes of an operation in an unfaulted state, or the fault it raises. -/
def effect (i : Instr) (s : State) : Except Fault State :=
  match i with
  | .tick => (tickEvents s.beginTick).bind fun t => .ok (sample t)
  | .tickCfgDrain => whenEnabled (drainReady s) s (.ok (drainHalt s))
  | .tickCfgLoad => whenEnabled (s.cfgPhase == .quiesce) s (cfgLoad s)
  | .tickSav => whenEnabled s.run s (sav s.hcount s.latchH)
  | .tickBeat => whenEnabled s.run s (beat s.latchH)
  | .tickEav => whenEnabled s.run s (eavAt s.hcount s.latchH)
  | .tickAdvance => whenEnabled s.run s (.ok (advance s.hcount s.latchH))
  | .tickSample => .ok (sample s)
  | .druDispatch => whenEnabled (dispatchEnabled s) s (.ok (dispatch s))
  | .druCopy => whenEnabled (copyEnabled s) s (copyStep s)
  | .druTail => whenEnabled (tailEnabled s) s (tailStep s)
  | .druTerm => whenEnabled (termEnabled s) s (.ok (termStep s))
  | .druHookReq => whenEnabled (hookReqEnabled s) s (.ok (hookReqStep s))
  | .druSched => whenEnabled (schedEnabled s) s (schedStep s)
  | .rastWb8 index data => whenEnabled (wbGrant s) s (wb8Step index data s)
  | .rastWb32 windex data => whenEnabled (wbGrant s) s (wb32Step windex data s)
  | .rastResp d => whenEnabled (wbGrant s) s (respStep d s)
  | .hookAck => whenEnabled s.hookReq s (.ok (hookAckStep s))
  | .wrCtrl v => unlessBusy s { s with videoEn := ctrlVideoEn v, syncEn := ctrlSyncEn v }
  | .wrStatus _ => .ok s
  | .wrLine _ => .ok s
  | .wrBandHead v => .ok { s with bandHead := v, bandTaken := false }
  | .wrTLinePixels v => unlessBusy s { s with sh := { s.sh with linePixels := timingField v } }
  | .wrTSyncPixels v => unlessBusy s { s with sh := { s.sh with syncPixels := timingField v } }
  | .wrTBackPorchPixels v => unlessBusy s { s with sh := { s.sh with backPorchPixels := timingField v } }
  | .wrTVideoLead v => unlessBusy s { s with sh := { s.sh with videoLead := timingField v } }
  | .wrTVideoPixels v => unlessBusy s { s with sh := { s.sh with videoPixels := timingField v } }
  | .wrTPolarity v => unlessBusy s { s with sh := { s.sh with hpol := polarityH v, vpol := polarityV v } }
  | .wrTVsyncStartLine v => unlessBusy s { s with sh := { s.sh with vsyncStartLine := timingField v } }
  | .wrTVsyncEndLine v => unlessBusy s { s with sh := { s.sh with vsyncEndLine := timingField v } }
  | .wrTVideoStartLine v => unlessBusy s { s with sh := { s.sh with videoStartLine := timingField v } }
  | .wrTVideoEndLine v => unlessBusy s { s with sh := { s.sh with videoEndLine := timingField v } }
  | .wrTClockConfig v => unlessBusy s { s with sh := { s.sh with clockConfig := v } }
  | .wrCmd v => unlessBusy s (if cmdCode v = 1#4 then configureStart s else s)
  | .wrReserved _ _ => .ok s
  | .rdCtrl => .ok (s.returnRead (ctrlWord s))
  | .rdStatus => .ok (s.returnRead (statusWord s))
  | .rdLine => .ok (s.returnRead (lineWord s))
  | .rdBandHead => .ok (s.returnRead s.bandHead)
  | .rdTLinePixels => .ok (s.returnRead (timingWord s.sh.linePixels))
  | .rdTSyncPixels => .ok (s.returnRead (timingWord s.sh.syncPixels))
  | .rdTBackPorchPixels => .ok (s.returnRead (timingWord s.sh.backPorchPixels))
  | .rdTVideoLead => .ok (s.returnRead (timingWord s.sh.videoLead))
  | .rdTVideoPixels => .ok (s.returnRead (timingWord s.sh.videoPixels))
  | .rdTPolarity => .ok (s.returnRead (polarityWord s.sh))
  | .rdTVsyncStartLine => .ok (s.returnRead (timingWord s.sh.vsyncStartLine))
  | .rdTVsyncEndLine => .ok (s.returnRead (timingWord s.sh.vsyncEndLine))
  | .rdTVideoStartLine => .ok (s.returnRead (timingWord s.sh.videoStartLine))
  | .rdTVideoEndLine => .ok (s.returnRead (timingWord s.sh.videoEndLine))
  | .rdTClockConfig => .ok (s.returnRead s.sh.clockConfig)
  | .rdCmd => .ok (s.returnRead zeroWord)
  | .rdReserved _ => .ok (s.returnRead zeroWord)
  | .reset => .ok s.afterReset

/-- Every operation but RESET is a step of an agent (R260.2). -/
theorem exec_eq_agentStep {i : Instr} (h : i ≠ .reset) (s : State) : exec i s = agentStep s (effect i s) := by
  cases i <;> first | rfl | exact absurd rfl h

theorem exec_reset (s : State) : exec .reset s = .next s.afterReset := rfl

/-- An operation that answers a next state: RESET, or its writes, or a fault that changes nothing else. -/
theorem exec_eq_next {i : Instr} {s t : State} (e : exec i s = .next t) :
    (i = .reset ∧ t = s.afterReset)
      ∨ (i ≠ .reset ∧ s.fault = none ∧ (effect i s = .ok t ∨ ∃ c, effect i s = .error c ∧ t = s.raise c)) := by
  by_cases h : i = .reset
  · subst h
    rw [exec_reset] at e
    exact .inl ⟨rfl, by simpa using e.symm⟩
  · rw [exec_eq_agentStep h] at e
    exact .inr ⟨h, agentStep_eq_next e⟩

theorem unlessBusy_eq_ok {s t u : State} (e : unlessBusy s t = .ok u) :
    u = s ∨ (s.cfgPhase = .idle ∧ u = t) := by
  unfold unlessBusy at e
  simp only [Except.ok.injEq] at e
  by_cases h : cfgBusy s
  · exact .inl (by simp [h] at e; exact e.symm)
  · simp only [h, Bool.false_eq_true, if_false] at e
    exact .inr ⟨by simpa [cfgBusy] using h, e.symm⟩

/-- A guarded step that answers a state: not enabled and nothing changed, or enabled and done. -/
theorem whenEnabled_eq_ok {b : Bool} {s t : State} {body : Except Fault State} (e : whenEnabled b s body = .ok t) :
    (b = false ∧ t = s) ∨ (b = true ∧ body = .ok t) := by
  unfold whenEnabled at e
  cases b
  · exact .inl ⟨rfl, by simpa using e.symm⟩
  · exact .inr ⟨rfl, by simpa using e⟩

/-- An operation whose writes are known. -/
theorem exec_next {i : Instr} {s t : State} (hf : s.fault = none) (h : i ≠ .reset) (e : effect i s = .ok t) : exec i s = .next t := by
  rw [exec_eq_agentStep h, e, agentStep_ok hf]

/-- An operation that raises a fault. -/
theorem exec_raise {i : Instr} {s : State} {c : Fault} (hf : s.fault = none) (h : i ≠ .reset) (e : effect i s = .error c) :
    exec i s = .next { s with fault := some c } := by
  rw [exec_eq_agentStep h, e, agentStep_error hf]; rfl

/-- R260.2. -/
theorem exec_stopped {i : Instr} {s : State} {c : Fault} (hr : i ≠ .reset) (h : s.fault = some c) :
    exec i s = .fault c := by
  rw [exec_eq_agentStep hr, agentStep_stopped h]

/-- What no operation but RESET writes, in an unfaulted state (R60, R8, R260). -/
def State.SameOutside (s t : State) : Prop :=
  t.fault = s.fault ∧ t.hostMem = s.hostMem ∧ t.params = s.params ∧ t.schedule = s.schedule
    ∧ t.druTurn = s.druTurn ∧ t.hostProg = s.hostProg ∧ t.hostVars = s.hostVars

theorem State.SameOutside.refl (s : State) : State.SameOutside s s := ⟨rfl, rfl, rfl, rfl, rfl, rfl, rfl⟩

theorem State.SameOutside.trans {s t u : State} (h : State.SameOutside s t) (g : State.SameOutside t u) : State.SameOutside s u := by
  obtain ⟨h1, h2, h3, h4, h5, h6, h7⟩ := h
  obtain ⟨g1, g2, g3, g4, g5, g6, g7⟩ := g
  exact ⟨g1.trans h1, g2.trans h2, g3.trans h3, g4.trans h4, g5.trans h5, g6.trans h6, g7.trans h7⟩

theorem sav_sameOutside {s t : State} {x : Half} (e : sav x s = .ok t) : State.SameOutside s t := by
  rcases sav_eq_ok e with rfl | ⟨_,_,_,_,_,rfl⟩ <;> exact ⟨rfl, rfl, rfl, rfl, rfl, rfl, rfl⟩

theorem beat_sameOutside {s t : State} (e : beat s = .ok t) : State.SameOutside s t := by
  rcases beat_eq_ok e with ⟨_, rfl⟩ | ⟨_, _, rfl⟩ | ⟨_, _, _, _, rfl⟩ <;> exact ⟨rfl, rfl, rfl, rfl, rfl, rfl, rfl⟩

theorem eavAt_sameOutside {s t : State} {x : Half} (e : eavAt x s = .ok t) : State.SameOutside s t := by
  rcases eavAt_eq_ok e with ⟨_, e⟩ | ⟨_, rfl⟩
  · obtain ⟨d, v, b, k, rfl⟩ := eav_frame e; exact ⟨rfl, rfl, rfl, rfl, rfl, rfl, rfl⟩
  · exact .refl _

theorem advance_sameOutside {s : State} {x : Half} : State.SameOutside s (advance x s) := by unfold advance; split <;> exact ⟨rfl, rfl, rfl, rfl, rfl, rfl, rfl⟩

theorem cfgLoad_sameOutside {s t : State} (e : cfgLoad s = .ok t) : State.SameOutside s t := by
  rcases cfgLoad_eq_ok e with ⟨_, rfl⟩ | ⟨h1, h2, rfl⟩ <;> exact ⟨rfl, rfl, rfl, rfl, rfl, rfl, rfl⟩

theorem tickEvents_sameOutside {s t : State} (e : tickEvents s = .ok t) : State.SameOutside s t := by
  rcases tickEvents_eq_ok e with ⟨h1, rfl⟩ | ⟨h1, e⟩ | ⟨_, _, h3, e⟩ | ⟨_, _, _, rfl⟩
  · exact ⟨rfl, rfl, rfl, rfl, rfl, rfl, rfl⟩
  · exact cfgLoad_sameOutside e
  · obtain ⟨s1, s2, s3, h1, h2, h3, rfl⟩ := generate_eq_ok e
    exact (((State.SameOutside.trans ⟨rfl, rfl, rfl, rfl, rfl, rfl, rfl⟩ (sav_sameOutside h1)).trans (beat_sameOutside h2)).trans (eavAt_sameOutside h3)).trans advance_sameOutside
  · exact .refl _

theorem effect_sameOutside {i : Instr} {s t : State} (hne : i ≠ .reset) (e : effect i s = .ok t) : State.SameOutside s t := by
  have lt : State.SameOutside s s.latchH := ⟨rfl, rfl, rfl, rfl, rfl, rfl, rfl⟩
  have z : ∀ {b : Bool} {u : Except Fault State}, whenEnabled b s u = .ok t → (u = .ok t → State.SameOutside s t) → State.SameOutside s t := by
    intro b u h g
    rcases whenEnabled_eq_ok h with ⟨_, rfl⟩ | ⟨hb, e⟩
    · exact .refl _
    · exact g e
  cases i <;> simp only [effect] at e
  case tick =>
    obtain ⟨u, hu, e⟩ := bind_eq_ok_iff.1 e
    cases e
    exact ((State.SameOutside.trans (show State.SameOutside s s.beginTick from ⟨rfl, rfl, rfl, rfl, rfl, rfl, rfl⟩) (tickEvents_sameOutside hu)).trans ⟨rfl, rfl, rfl, rfl, rfl, rfl, rfl⟩)
  case reset => exact absurd rfl hne
  case tickCfgLoad => exact z e cfgLoad_sameOutside
  case tickSav => exact z e fun h => lt.trans (sav_sameOutside h)
  case tickBeat => exact z e fun h => lt.trans (beat_sameOutside h)
  case tickEav => exact z e fun h => lt.trans (eavAt_sameOutside h)
  case tickAdvance => exact z e fun h => by cases h; exact lt.trans advance_sameOutside
  case druCopy => exact z e fun h => by rcases copyStep_eq_ok h with ⟨h1, w, h2, rfl⟩ | ⟨_, rfl⟩ <;> exact ⟨rfl, rfl, rfl, rfl, rfl, rfl, rfl⟩
  case druTail => exact z e fun h => by obtain ⟨sb, h1, rfl⟩ := tailStep_eq_ok h; exact ⟨rfl, rfl, rfl, rfl, rfl, rfl, rfl⟩
  case druSched => exact z e fun h => by rcases schedStep_eq_ok h with ⟨_, _, rfl⟩ | ⟨_, _, n, _, rfl⟩ | ⟨_, _, rfl⟩ <;> exact ⟨rfl, rfl, rfl, rfl, rfl, rfl, rfl⟩
  case rastWb8 => exact z e fun h => by obtain ⟨h1, rfl⟩ := wb8Step_eq_ok h; exact ⟨rfl, rfl, rfl, rfl, rfl, rfl, rfl⟩
  case rastWb32 => exact z e fun h => by obtain ⟨h1, rfl⟩ := wb32Step_eq_ok h; exact ⟨rfl, rfl, rfl, rfl, rfl, rfl, rfl⟩
  case rastResp => exact z e fun h => by obtain ⟨h1, rfl⟩ := respStep_eq_ok h; exact ⟨rfl, rfl, rfl, rfl, rfl, rfl, rfl⟩
  case wrCmd =>
    rcases unlessBusy_eq_ok e with rfl | ⟨_, rfl⟩
    · exact .refl _
    · split <;> exact ⟨rfl, rfl, rfl, rfl, rfl, rfl, rfl⟩
  all_goals first
    | (rcases unlessBusy_eq_ok e with rfl | ⟨_, rfl⟩ <;> exact ⟨rfl, rfl, rfl, rfl, rfl, rfl, rfl⟩)
    | (exact z e fun h => by cases h; exact ⟨rfl, rfl, rfl, rfl, rfl, rfl, rfl⟩)
    | (cases e; exact ⟨rfl, rfl, rfl, rfl, rfl, rfl, rfl⟩)

end Sys2Proof.Machine
end

