-- ==== Sys2Proof/Laws/PerInstr.lean ====
section
/-! SUPPORT. Per-instruction laws. `Descriptor`: the 16-bit descriptor of an operation is of the class of the agent that takes
it, and a register access has its offset in the block and 4-aligned (spec/30_encoding.md R120, R121). -/

namespace Sys2Proof.Laws

/-- The class of an operation's agent (R121): CLK 0, DRU 1, RAST and HOOK 2, HOST 3 for writes and 4 for reads, RST 5. -/
def agentClass (i : Instr) : BitVec 4 :=
  match i with
  | .tick | .tickCfgDrain | .tickCfgLoad | .tickSav | .tickBeat | .tickEav | .tickAdvance | .tickSample => 0#4
  | .druDispatch | .druCopy | .druTail | .druTerm | .druHookReq | .druSched => 1#4
  | .rastWb8 _ _ | .rastWb32 _ _ | .rastResp _ | .hookAck => 2#4
  | .wrCtrl _ | .wrStatus _ | .wrLine _ | .wrBandHead _ | .wrTLinePixels _ | .wrTSyncPixels _ => 3#4
  | .wrTBackPorchPixels _ | .wrTVideoLead _ | .wrTVideoPixels _ | .wrTPolarity _ | .wrTVsyncStartLine _ => 3#4
  | .wrTVsyncEndLine _ | .wrTVideoStartLine _ | .wrTVideoEndLine _ | .wrTClockConfig _ | .wrCmd _ => 3#4
  | .wrReserved _ _ => 3#4
  | .rdCtrl | .rdStatus | .rdLine | .rdBandHead | .rdTLinePixels | .rdTSyncPixels | .rdTBackPorchPixels => 4#4
  | .rdTVideoLead | .rdTVideoPixels | .rdTPolarity | .rdTVsyncStartLine | .rdTVsyncEndLine => 4#4
  | .rdTVideoStartLine | .rdTVideoEndLine | .rdTClockConfig | .rdCmd | .rdReserved _ => 4#4
  | .reset => 5#4

/-- The class of the descriptor, and the byte offset of a register access. -/
def Descriptor.Statement (i : Instr) : Prop :=
  opClass (encodeOp i) = agentClass i
    ∧ (agentClass i = 3#4 ∨ agentClass i = 4#4 →
        (opCode (encodeOp i)).toNat < 0x100 ∧ (opCode (encodeOp i)).toNat % 4 = 0)

/-- The descriptor that `accessOp` builds. -/
theorem accessOp_offset : ∀ (cls : BitVec 4) (reg : BitVec 6),
    opClass (accessOp cls reg) = cls ∧ (opCode (accessOp cls reg)).toNat < 0x100
      ∧ (opCode (accessOp cls reg)).toNat % 4 = 0 := by
  decide

namespace Descriptor

/-- An operation whose descriptor is one written-out word. -/
theorem of_word (i : Instr) (op : BitVec 16) (cls : BitVec 4) (ho : encodeOp i = op) (hc : agentClass i = cls)
    (h : opClass op = cls ∧ (cls = 3#4 ∨ cls = 4#4 → (opCode op).toNat < 0x100 ∧ (opCode op).toNat % 4 = 0)) :
    Statement i := by
  unfold Statement
  rw [ho, hc]
  exact h

theorem tick : Statement .tick :=
    of_word _ 0x0000#16 0#4 rfl rfl (by decide)

theorem tickCfgDrain : Statement .tickCfgDrain :=
    of_word _ 0x0001#16 0#4 rfl rfl (by decide)

theorem tickCfgLoad : Statement .tickCfgLoad :=
    of_word _ 0x0002#16 0#4 rfl rfl (by decide)

theorem tickSav : Statement .tickSav :=
    of_word _ 0x0003#16 0#4 rfl rfl (by decide)

theorem tickBeat : Statement .tickBeat :=
    of_word _ 0x0004#16 0#4 rfl rfl (by decide)

theorem tickEav : Statement .tickEav :=
    of_word _ 0x0005#16 0#4 rfl rfl (by decide)

theorem tickAdvance : Statement .tickAdvance :=
    of_word _ 0x0006#16 0#4 rfl rfl (by decide)

theorem tickSample : Statement .tickSample :=
    of_word _ 0x0007#16 0#4 rfl rfl (by decide)

theorem druDispatch : Statement .druDispatch :=
    of_word _ 0x1000#16 1#4 rfl rfl (by decide)

theorem druCopy : Statement .druCopy :=
    of_word _ 0x1001#16 1#4 rfl rfl (by decide)

theorem druTail : Statement .druTail :=
    of_word _ 0x1002#16 1#4 rfl rfl (by decide)

theorem druTerm : Statement .druTerm :=
    of_word _ 0x1003#16 1#4 rfl rfl (by decide)

theorem druHookReq : Statement .druHookReq :=
    of_word _ 0x1004#16 1#4 rfl rfl (by decide)

theorem druSched : Statement .druSched :=
    of_word _ 0x1005#16 1#4 rfl rfl (by decide)

theorem rastWb8 (index : Half) (data : Byte) : Statement (.rastWb8 index data) :=
    of_word _ 0x2000#16 2#4 rfl rfl (by decide)

theorem rastWb32 (windex : BitVec 14) (data : Word) : Statement (.rastWb32 windex data) :=
    of_word _ 0x2001#16 2#4 rfl rfl (by decide)

theorem rastResp (d : Word) : Statement (.rastResp d) :=
    of_word _ 0x2002#16 2#4 rfl rfl (by decide)

theorem hookAck : Statement .hookAck :=
    of_word _ 0x2003#16 2#4 rfl rfl (by decide)

theorem wrCtrl (v : Word) : Statement (.wrCtrl v) :=
    of_word _ 0x3000#16 3#4 rfl rfl (by decide)

theorem wrStatus (v : Word) : Statement (.wrStatus v) :=
    of_word _ 0x3004#16 3#4 rfl rfl (by decide)

theorem wrLine (v : Word) : Statement (.wrLine v) :=
    of_word _ 0x3008#16 3#4 rfl rfl (by decide)

theorem wrBandHead (v : Word) : Statement (.wrBandHead v) :=
    of_word _ 0x300C#16 3#4 rfl rfl (by decide)

theorem wrTLinePixels (v : Word) : Statement (.wrTLinePixels v) :=
    of_word _ 0x3010#16 3#4 rfl rfl (by decide)

theorem wrTSyncPixels (v : Word) : Statement (.wrTSyncPixels v) :=
    of_word _ 0x3014#16 3#4 rfl rfl (by decide)

theorem wrTBackPorchPixels (v : Word) : Statement (.wrTBackPorchPixels v) :=
    of_word _ 0x3018#16 3#4 rfl rfl (by decide)

theorem wrTVideoLead (v : Word) : Statement (.wrTVideoLead v) :=
    of_word _ 0x301C#16 3#4 rfl rfl (by decide)

theorem wrTVideoPixels (v : Word) : Statement (.wrTVideoPixels v) :=
    of_word _ 0x3020#16 3#4 rfl rfl (by decide)

theorem wrTPolarity (v : Word) : Statement (.wrTPolarity v) :=
    of_word _ 0x3024#16 3#4 rfl rfl (by decide)

theorem wrTVsyncStartLine (v : Word) : Statement (.wrTVsyncStartLine v) :=
    of_word _ 0x3028#16 3#4 rfl rfl (by decide)

theorem wrTVsyncEndLine (v : Word) : Statement (.wrTVsyncEndLine v) :=
    of_word _ 0x302C#16 3#4 rfl rfl (by decide)

theorem wrTVideoStartLine (v : Word) : Statement (.wrTVideoStartLine v) :=
    of_word _ 0x3030#16 3#4 rfl rfl (by decide)

theorem wrTVideoEndLine (v : Word) : Statement (.wrTVideoEndLine v) :=
    of_word _ 0x3034#16 3#4 rfl rfl (by decide)

theorem wrTClockConfig (v : Word) : Statement (.wrTClockConfig v) :=
    of_word _ 0x3038#16 3#4 rfl rfl (by decide)

theorem wrCmd (v : Word) : Statement (.wrCmd v) :=
    of_word _ 0x3040#16 3#4 rfl rfl (by decide)

theorem wrReserved (reg : BitVec 6) (v : Word) : Statement (.wrReserved reg v) := ⟨(accessOp_offset 3#4 reg).1, fun _ => (accessOp_offset 3#4 reg).2⟩

theorem rdCtrl : Statement .rdCtrl :=
    of_word _ 0x4000#16 4#4 rfl rfl (by decide)

theorem rdStatus : Statement .rdStatus :=
    of_word _ 0x4004#16 4#4 rfl rfl (by decide)

theorem rdLine : Statement .rdLine :=
    of_word _ 0x4008#16 4#4 rfl rfl (by decide)

theorem rdBandHead : Statement .rdBandHead :=
    of_word _ 0x400C#16 4#4 rfl rfl (by decide)

theorem rdTLinePixels : Statement .rdTLinePixels :=
    of_word _ 0x4010#16 4#4 rfl rfl (by decide)

theorem rdTSyncPixels : Statement .rdTSyncPixels :=
    of_word _ 0x4014#16 4#4 rfl rfl (by decide)

theorem rdTBackPorchPixels : Statement .rdTBackPorchPixels :=
    of_word _ 0x4018#16 4#4 rfl rfl (by decide)

theorem rdTVideoLead : Statement .rdTVideoLead :=
    of_word _ 0x401C#16 4#4 rfl rfl (by decide)

theorem rdTVideoPixels : Statement .rdTVideoPixels :=
    of_word _ 0x4020#16 4#4 rfl rfl (by decide)

theorem rdTPolarity : Statement .rdTPolarity :=
    of_word _ 0x4024#16 4#4 rfl rfl (by decide)

theorem rdTVsyncStartLine : Statement .rdTVsyncStartLine :=
    of_word _ 0x4028#16 4#4 rfl rfl (by decide)

theorem rdTVsyncEndLine : Statement .rdTVsyncEndLine :=
    of_word _ 0x402C#16 4#4 rfl rfl (by decide)

theorem rdTVideoStartLine : Statement .rdTVideoStartLine :=
    of_word _ 0x4030#16 4#4 rfl rfl (by decide)

theorem rdTVideoEndLine : Statement .rdTVideoEndLine :=
    of_word _ 0x4034#16 4#4 rfl rfl (by decide)

theorem rdTClockConfig : Statement .rdTClockConfig :=
    of_word _ 0x4038#16 4#4 rfl rfl (by decide)

theorem rdCmd : Statement .rdCmd :=
    of_word _ 0x4040#16 4#4 rfl rfl (by decide)

theorem rdReserved (reg : BitVec 6) : Statement (.rdReserved reg) := ⟨(accessOp_offset 4#4 reg).1, fun _ => (accessOp_offset 4#4 reg).2⟩

theorem reset : Statement .reset :=
    of_word _ 0x5000#16 5#4 rfl rfl (by decide)

end Descriptor

end Sys2Proof.Laws
end

