-- ==== Sys2Proof/Laws/Step.lean ====
section
/-! SUPPORT. What comes next, said once: which operation a step runs and in which state, and that a step uses up one entry of
the schedule. -/

namespace Sys2Proof.Machine

/-! ### The bound names of the host's program -/

@[simp] theorem HostVars.get_bind (vars : HostVars) (n : HostName) (v : Word) : (vars.bind n v).get n = v := by
  cases n <;> rfl

theorem HostVars.get_bind_other (vars : HostVars) {n m : HostName} (v : Word) (h : n ≠ m) :
    (vars.bind n v).get m = vars.get m := by
  cases n <;> cases m <;> first | rfl | exact absurd rfl h

/-- A read of the host's program that answers a state binds the value read. -/
theorem bindResult_eq_next {name : HostName} {o : Host.Outcome State Fault Refusal} {t : State}
    (e : bindResult name o = .next t) :
    ∃ u, o = .next u ∧ t = { u with hostVars := u.hostVars.bind name u.rdData } := by
  cases o with
  | next u => exact ⟨u, rfl, by simpa [bindResult] using e.symm⟩
  | fault c => cases e
  | refused r => cases e

/-! ### The schedule -/

/-- An operation writes no schedule and no turn, RESET neither. -/
theorem exec_schedule {i : Instr} {s t : State} (e : exec i s = .next t) :
    t.schedule = s.schedule ∧ t.druTurn = s.druTurn := by
  rcases exec_eq_next e with ⟨_, rfl⟩ | ⟨hne, _, h | ⟨c, _, rfl⟩⟩
  · exact ⟨rfl, rfl⟩
  · have f := effect_sameOutside hne h
    exact ⟨f.2.2.2.1, f.2.2.2.2.1⟩
  · exact ⟨rfl, rfl⟩

/-! ### What a step can do -/

/-- `u` is `s` with another schedule, `rest`, and another host side: only the schedule's turn, host memory, which keeps its
canonical form, and the host's own state may differ. -/
def State.HostSide (rest : List Input) (s u : State) : Prop :=
  ∃ turn m evt vars prog,
    u = { s with
      schedule := rest, druTurn := turn, hostMem := m, hostEvt := evt, hostVars := vars, hostProg := prog }
    ∧ (Memory.wf s.hostMem → Memory.wf m)

theorem State.HostSide.host {rest : List Input} {s u : State} (h : State.HostSide rest s u) (vars : HostVars)
    (evt : Bool) (prog : List HostOp) :
    State.HostSide rest s { u with hostVars := vars, hostEvt := evt, hostProg := prog } := by
  obtain ⟨turn, m, evt', vars', prog', rfl, hm⟩ := h
  exact ⟨turn, m, evt, vars, prog, rfl, hm⟩

theorem popTo_hostSide (s : State) (rest : List Input) : State.HostSide rest s (s.popTo rest) :=
  ⟨_, _, _, _, _, rfl, id⟩

theorem State.HostSide.fault {rest : List Input} {s u : State} (h : State.HostSide rest s u) : u.fault = s.fault := by
  obtain ⟨_, _, _, _, _, rfl, _⟩ := h
  rfl

/-- What comes next is an operation in a state that differs on the host side only, or such a state itself, or REG_ACCESS
raised in one. -/
def Action.Within (rest : List Input) (s : State) (a : Action) : Prop :=
  match a with
  | .run _ u => State.HostSide rest s u
  | .read _ u _ => State.HostSide rest s u
  | .done o => ∀ t, o = .next t →
      s.fault = none ∧ (State.HostSide rest s t ∨ ∃ u, State.HostSide rest s u ∧ t = u.raise .regAccess)

theorem agentStep_within {rest : List Input} {s u : State} (h : State.HostSide rest s u) {body : Except Fault State}
    (ok : ∀ t, body = .ok t → State.HostSide rest s t) (err : ∀ c, body = .error c → c = .regAccess) :
    Action.Within rest s (.done (agentStep u body)) := by
  intro t e
  obtain ⟨hf, hb | ⟨c, hc, rfl⟩⟩ := agentStep_eq_next e
  · exact ⟨h.fault ▸ hf, .inl (ok t hb)⟩
  · exact ⟨h.fault ▸ hf, .inr ⟨u, h, by rw [err c hc]⟩⟩

theorem busAccess_within {rest : List Input} {s u : State} (h : State.HostSide rest s u) (prog : List HostOp) (w : Bool)
    (width : AccessWidth) (addr v : Word) :
    Action.Within rest s (busAccess u { u with hostProg := prog } w width addr v) := by
  have hp := h.host u.hostVars u.hostEvt prog
  unfold busAccess
  split
  · exact agentStep_within h (fun t e => by cases e; exact hp) (fun c e => by cases e)
  · split
    · exact agentStep_within h (fun t e => by cases e) (fun c e => by cases e; rfl)
    · exact hp

theorem hostStep_within {rest : List Input} {s u : State} (h : State.HostSide rest s u) :
    Action.Within rest s (hostStep u) := by
  have hp := fun prog => h.host u.hostVars u.hostEvt prog
  unfold hostStep
  split
  · exact agentStep_within h (fun t e => by cases e; exact h) (fun c e => by cases e)
  · exact hp _
  · exact hp _
  · exact hp _
  · exact busAccess_within h _ _ _ _ _
  · split
    · rename_i n addr v prog _ hn
      refine agentStep_within h (fun t e => ?_) (fun c e => by cases e)
      cases e
      obtain ⟨turn, m, evt, vars, prog', rfl, hm⟩ := h
      exact ⟨turn, _, evt, vars, prog, rfl, fun hw => Memory.wf_hostWrite (hm hw) v hn⟩
    · intro t e
      cases e
  · exact hp _
  · refine agentStep_within h (fun t e => ?_) (fun c e => by cases e)
    cases e
    split
    · exact h.host u.hostVars false _
    · exact h

theorem fetch_within (s : State) : Action.Within s.schedule.tail s (fetch s) := by
  unfold fetch
  split
  · rename_i hs
    unfold takeTurn
    split <;> exact ⟨_, _, _, _, _, by rw [hs]; rfl, id⟩
  · rename_i op data rest hs
    have h := popTo_hostSide s rest
    rw [hs]
    unfold opAction
    split
    · exact h
    · exact agentStep_within h (fun t e => by cases e) (fun c e => by cases e; rfl)
    · intro t e
      cases e
  · rename_i rest hs
    have h := popTo_hostSide s rest
    rw [hs]
    unfold druAction
    split
    · exact h
    · exact agentStep_within h (fun t e => by cases e; exact h) (fun c e => by cases e)
  · rename_i rest hs
    rw [hs]
    exact hostStep_within (popTo_hostSide s rest)
  · rename_i program rest hs
    have h := popTo_hostSide s rest
    rw [hs]
    exact agentStep_within h (fun t e => by cases e; exact h.host s.hostVars s.hostEvt _) (fun c e => by cases e)

/-- A step that answers a state: an operation in a state that differs on the host side only, whose result the host may bind;
or a step of the host side alone; or REG_ACCESS. -/
theorem step_cases {s t : State} (e : step s = .next t) :
    (∃ i u v vars, State.HostSide s.schedule.tail s u ∧ exec i u = .next v ∧ t = { v with hostVars := vars })
      ∨ (s.fault = none ∧ State.HostSide s.schedule.tail s t)
      ∨ (s.fault = none ∧ ∃ u, State.HostSide s.schedule.tail s u ∧ t = u.raise .regAccess) := by
  have w := fetch_within s
  unfold step at e
  split at e
  · rename_i i u hf
    rw [hf] at w
    exact .inl ⟨i, u, t, t.hostVars, w, e, rfl⟩
  · rename_i i u name hf
    rw [hf] at w
    obtain ⟨v, hv, rfl⟩ := bindResult_eq_next e
    exact .inl ⟨i, u, v, _, w, hv, rfl⟩
  · rename_i o hf
    rw [hf] at w
    obtain ⟨hn, h | h⟩ := w t e
    · exact .inr (.inl ⟨hn, h⟩)
    · exact .inr (.inr ⟨hn, h⟩)

end Sys2Proof.Machine
end

