-- ==== Sys2Proof/Tests/Slice0.lean ====
section
/-! SUPPORT. The model's own tests. Words are written out from spec/30_encoding.md R120, R121; expected results are the
vectors of spec/95_test_vectors.md section 2, named in each docstring. The `witness_` theorems show states and operands that
meet the hypotheses of the statements of Certificates/Slice0/Obligations.lean, clause by clause. -/

namespace Sys2Proof.Tests

open Sys2Proof Sys2Proof.Machine

/-! ### Helpers -/

/-- The step answers a next state with this property. -/
def nextHas (o : Host.Outcome State Fault Refusal) (p : State → Bool) : Bool :=
  match o with
  | .next t => p t
  | .fault _ => false
  | .refused _ => false

/-- The step answers a next state that differs in `fault` alone. -/
def raises (o : Host.Outcome State Fault Refusal) (s : State) (c : Fault) : Bool :=
  nextHas o fun t => decide (t = { s with fault := some c })

/-- The example timing `T0` of 95_test_vectors.md section 0.2. -/
def t0 : Timing where
  linePixels := 16
  syncPixels := 2
  backPorchPixels := 3
  videoLead := 1
  videoPixels := 8
  hpol := false
  vpol := false
  vsyncStartLine := 1
  vsyncEndLine := 2
  videoStartLine := 4
  videoEndLine := 8
  clockConfig := 0x1234

/-- Sixteen cells with these bytes. -/
def cells (bs : List Byte) : Cells := (List.range bs.length).zip bs

/-- `T0` running, line 5, the picture on the screen. -/
def running : State :=
  { State.reset with
    videoEn := true, syncEn := true, sh := t0, t := t0, run := true, savCmp := 4, savCmpNext := 4, display := .active
    currentLine := 5, vsyncLevel := true, bandTaken := true, workShape := ⟨0, 8⟩, dmaCount := 9, clkCfgO := 0x1234
    wb := cells [1, 2, 3, 4, 5, 6, 7, 8, 0xA5, 0xA5, 0xA5, 0xA5, 0xA5, 0xA5, 0xA5, 0xA5]
    sb := cells [9, 9, 9, 9, 9, 9, 9, 9, 0, 0, 0, 0, 0, 0, 0, 0] }

/-- `running` at position `h` of line `l`, in a display state. -/
def at_ (h l : Half) (d : DisplayState) : State := { running with hcount := h, currentLine := l, display := d }

/-- `running` with the render unit in a phase, on line 5 with 8 bytes to copy. -/
def render (p : DruPhase) : State := { running with dru := ⟨p, .active, 5, 8, 0⟩, hookReq := decide (p = .hookWait) }

/-- `running` with a stream that emits its first beat at the next TICK. -/
def streaming : State := { running with hcount := 5, dma := ⟨true, 0, 0, 9⟩ }

/-- A CONFIGURE in progress from reset, with `SH = T0`. -/
def configuring (p : CfgPhase) : State := { State.reset with sh := t0, cfgPhase := p }

/-- The two nodes of 95_test_vectors.md section 2.5 in host memory. -/
def nodes : Cells :=
  hostWrite (hostWrite (hostWrite (hostWrite (hostWrite [] 0x20000000 0x11 4) 0x20000004 2 4) 0x20000008 0x2000000C 4)
    0x2000000C 0x22 4) 0x20000010 1 4

/-- The render unit about to schedule, with this band. -/
def scheduling (b : Band) : State := { render .sched with currentBand := b, hostMem := nodes }

/-! ### Well-formedness -/

theorem test_wrReserved_at_a_register_is_ill_formed :
    (Instr.wrReserved 0 5).wellFormed = false ∧ (Instr.wrReserved 16 5).wellFormed = false := by decide

theorem test_rdReserved_at_a_register_is_ill_formed :
    (Instr.rdReserved 14).wellFormed = false ∧ (Instr.rdReserved 16).wellFormed = false := by decide

theorem test_reserved_offsets_are_well_formed :
    (Instr.wrReserved 15 5).wellFormed = true ∧ (Instr.rdReserved 63).wellFormed = true := by decide

/-! ### Decoding -/

/-- Class 0x0. -/
theorem test_decode_tick_words :
    decodeTableWord 16 0b0000000000000000 = some .tick ∧ decodeTableWord 16 0b0000000000000001 = some .tickCfgDrain
      ∧ decodeTableWord 16 0b0000000000000010 = some .tickCfgLoad
      ∧ decodeTableWord 16 0b0000000000000011 = some .tickSav
      ∧ decodeTableWord 16 0b0000000000000100 = some .tickBeat
      ∧ decodeTableWord 16 0b0000000000000101 = some .tickEav
      ∧ decodeTableWord 16 0b0000000000000110 = some .tickAdvance
      ∧ decodeTableWord 16 0b0000000000000111 = some .tickSample := by decide

/-- Class 0x1. -/
theorem test_decode_dru_words :
    decodeTableWord 16 0b0001000000000000 = some .druDispatch
      ∧ decodeTableWord 16 0b0001000000000001 = some .druCopy
      ∧ decodeTableWord 16 0b0001000000000010 = some .druTail
      ∧ decodeTableWord 16 0b0001000000000011 = some .druTerm
      ∧ decodeTableWord 16 0b0001000000000100 = some .druHookReq
      ∧ decodeTableWord 16 0b0001000000000101 = some .druSched := by decide

/-- Class 0x2; `RAST.WB8 15, 0x5A`, `RAST.WB32 1, 0x44332211`, `RAST.RESP 0x00080000` with their data beside them. -/
theorem test_decode_port_words :
    decodeTableWord 64 0x5A000F2000 = some (.rastWb8 15 0x5A)
      ∧ decodeTableWord 64 0x4433221100012001 = some (.rastWb32 1 0x44332211)
      ∧ decodeTableWord 48 0x000800002002 = some (.rastResp 0x00080000)
      ∧ decodeTableWord 16 0b0010000000000011 = some .hookAck := by decide

/-- Class 0x3, each with `v = 0x00010010`. -/
theorem test_decode_write_words :
    decodeTableWord 48 0x000100103000 = some (.wrCtrl 0x10010)
      ∧ decodeTableWord 48 0x000100103004 = some (.wrStatus 0x10010)
      ∧ decodeTableWord 48 0x000100103008 = some (.wrLine 0x10010)
      ∧ decodeTableWord 48 0x00010010300C = some (.wrBandHead 0x10010)
      ∧ decodeTableWord 48 0x000100103010 = some (.wrTLinePixels 0x10010)
      ∧ decodeTableWord 48 0x000100103014 = some (.wrTSyncPixels 0x10010)
      ∧ decodeTableWord 48 0x000100103018 = some (.wrTBackPorchPixels 0x10010)
      ∧ decodeTableWord 48 0x00010010301C = some (.wrTVideoLead 0x10010)
      ∧ decodeTableWord 48 0x000100103020 = some (.wrTVideoPixels 0x10010)
      ∧ decodeTableWord 48 0x000100103024 = some (.wrTPolarity 0x10010)
      ∧ decodeTableWord 48 0x000100103028 = some (.wrTVsyncStartLine 0x10010)
      ∧ decodeTableWord 48 0x00010010302C = some (.wrTVsyncEndLine 0x10010)
      ∧ decodeTableWord 48 0x000100103030 = some (.wrTVideoStartLine 0x10010)
      ∧ decodeTableWord 48 0x000100103034 = some (.wrTVideoEndLine 0x10010)
      ∧ decodeTableWord 48 0x000100103038 = some (.wrTClockConfig 0x10010)
      ∧ decodeTableWord 48 0x000100103040 = some (.wrCmd 0x10010)
      ∧ decodeTableWord 48 0x00010010303C = some (.wrReserved 15 0x10010)
      ∧ decodeTableWord 48 0x0001001030FC = some (.wrReserved 63 0x10010) := by decide

/-- Class 0x4. -/
theorem test_decode_read_words :
    decodeTableWord 16 0x4000 = some .rdCtrl ∧ decodeTableWord 16 0x4004 = some .rdStatus
      ∧ decodeTableWord 16 0x4008 = some .rdLine ∧ decodeTableWord 16 0x400C = some .rdBandHead
      ∧ decodeTableWord 16 0x4010 = some .rdTLinePixels ∧ decodeTableWord 16 0x4014 = some .rdTSyncPixels
      ∧ decodeTableWord 16 0x4018 = some .rdTBackPorchPixels ∧ decodeTableWord 16 0x401C = some .rdTVideoLead
      ∧ decodeTableWord 16 0x4020 = some .rdTVideoPixels ∧ decodeTableWord 16 0x4024 = some .rdTPolarity
      ∧ decodeTableWord 16 0x4028 = some .rdTVsyncStartLine ∧ decodeTableWord 16 0x402C = some .rdTVsyncEndLine
      ∧ decodeTableWord 16 0x4030 = some .rdTVideoStartLine ∧ decodeTableWord 16 0x4034 = some .rdTVideoEndLine
      ∧ decodeTableWord 16 0x4038 = some .rdTClockConfig ∧ decodeTableWord 16 0x4040 = some .rdCmd
      ∧ decodeTableWord 16 0x403C = some (.rdReserved 15) ∧ decodeTableWord 16 0x4044 = some (.rdReserved 17) := by
  decide

/-- Class 0x5. -/
theorem test_decode_reset_word : decodeTableWord 16 0b0101000000000000 = some .reset := by decide

/-- R122: reserved descriptors. -/
theorem test_reserved_words_are_refused :
    decodeTableWord 16 0x0008 = none ∧ decodeTableWord 16 0x1006 = none ∧ decodeTableWord 16 0x2004 = none
      ∧ decodeTableWord 16 0x3100 = none ∧ decodeTableWord 16 0x4002 = none ∧ decodeTableWord 16 0x5001 = none
      ∧ decodeTableWord 16 0x6000 = none ∧ decodeTableWord 16 0xF000 = none := by decide

/-! ### The TICK (sections 2.1 to 2.3, 2.7) -/

/-- TH4: ADVANCE wraps and takes `sav_cmp_next`. -/
theorem test_tick_wraps :
    nextHas (exec .tick { at_ 15 5 .active with savCmpNext := 6 })
      (fun t => t.hcount = 0 ∧ t.savCmp = 6 ∧ t.pins.hsync = some true) := by decide

/-- TD1 and TD6: SAV arms and BEAT counts down in the same TICK. -/
theorem test_tick_arms_the_stream :
    nextHas (exec .tick { at_ 4 5 .active with dmaCount := 11 }) (fun t => t.dma = ⟨true, 0, 0, 11⟩ ∧ t.hcount = 5) := by
  decide

/-- TC2. -/
theorem test_cfgDrain : nextHas (exec .tickCfgDrain (configuring .drain)) (fun t => t = configuring .quiesce) := by decide

/-- TC3. -/
theorem test_cfgLoad :
    nextHas (exec .tickCfgLoad (configuring .quiesce)) (fun t =>
      statusWord t = 0x504 ∧ ctrlWord t = 0x2 ∧ t.savCmp = 4 ∧ t.savCmpNext = 4 ∧ t.clkCfgO = 0x1234 ∧ t.evt = true
        ∧ t.wb = cells (List.replicate 16 0xA5) ∧ t.sb = (cells (List.replicate 16 0)).drop 8) := by decide

/-- TC6. -/
theorem test_cfgLoad_undef_timing :
    raises (exec .tickCfgLoad { State.reset with cfgPhase := .quiesce }) { State.reset with cfgPhase := .quiesce }
      .undefTiming := by decide

/-- TD7: `4 + 1 + 12 > 16`. -/
theorem test_sav_past_line :
    raises (exec .tickSav { at_ 4 5 .active with dmaCount := 12 }) { at_ 4 5 .active with dmaCount := 12 }
      .dmaPastLine := by decide

/-- TD2: no stream in `starting`. -/
theorem test_sav_in_starting : nextHas (exec .tickSav (at_ 4 4 .starting)) (fun t => t.dma.busy = false) := by decide

/-- TD9: the last beat. -/
theorem test_beat_last :
    nextHas (exec .tickBeat { at_ 13 5 .active with dma := ⟨true, 0, 8, 9⟩ }) (fun t =>
      t.pixLatch = 0 ∧ t.dma = ⟨false, 0, 9, 9⟩) := by decide

/-- TD10. -/
theorem test_beat_unwritten :
    raises (exec .tickBeat { streaming with sb := [] }) { streaming with sb := [] } .unwrittenRead := by decide

/-- TV2 and the row of line 7: `A = 12` and FINISHING. -/
theorem test_eav_finishing :
    nextHas (exec .tickEav { at_ 13 7 .active with workShape := ⟨8, 2⟩ }) (fun t =>
      t.savCmpNext = 12 ∧ t.display = .finishing ∧ t.currentLine = 0 ∧ t.deferPending ∧ t.evt) := by decide

/-- The row of line 3, with the head node of section 2.5. -/
theorem test_eav_starting :
    nextHas (exec .tickEav { at_ 13 3 .blank with bandHead := 0x20000000, bandTaken := false, hostMem := nodes }) (fun t =>
      t.display = .starting ∧ t.currentBand = ⟨0x11, 2, 0x2000000C⟩ ∧ t.bandTaken ∧ t.currentLine = 4) := by decide

/-- TH5: `sav_cmp` keeps its value before the wrap. -/
theorem test_advance :
    nextHas (exec .tickAdvance { at_ 14 5 .active with savCmpNext := 6 }) (fun t => t.hcount = 15 ∧ t.savCmp = 4) := by
  decide

/-- TH7: HSYNC at its idle level with the generator stopped, and the host's latch. -/
theorem test_sample :
    nextHas (exec .tickSample { State.reset with syncEn := true, evt := true }) (fun t =>
      t.pins = ⟨some true, some false, none, true⟩ ∧ t.hostEvt) := by decide

/-! ### The deferred render unit and its ports (sections 2.4, 2.5) -/

/-- TR1. -/
theorem test_dispatch :
    nextHas (exec .druDispatch { running with deferPending := true }) (fun t =>
      t.deferPending = false ∧ t.dru = ⟨.copy, .active, 5, 8, 0⟩) := by decide

/-- TR4, the second word. -/
theorem test_copy :
    nextHas (exec .druCopy { render .copy with dru := ⟨.copy, .active, 5, 8, 1⟩ }) (fun t =>
      t.sb = cells [9, 9, 9, 9, 5, 6, 7, 8, 0, 0, 0, 0, 0, 0, 0, 0] ∧ t.dru.copyIdx = 2) := by decide

/-- TR7, the two bytes after one word. -/
theorem test_tail :
    nextHas (exec .druTail { render .tail with dru := ⟨.tail, .active, 5, 6, 1⟩ }) (fun t =>
      t.sb = cells [9, 9, 9, 9, 5, 6, 9, 9, 0, 0, 0, 0, 0, 0, 0, 0] ∧ t.dru.phase = .term) := by decide

/-- TR10: the terminator in the last cell. -/
theorem test_term :
    nextHas (exec .druTerm { render .term with sb := [], dru := ⟨.term, .active, 5, 15, 3⟩ }) (fun t =>
      t.sb = [(15, 0)] ∧ t.dmaCount = 16 ∧ t.dru.phase = .hook) := by decide

/-- TR12. -/
theorem test_hookReq :
    nextHas (exec .druHookReq (render .hook)) (fun t => t.hookReq ∧ t.dru.phase = .hookWait) := by decide

/-- TB1: `ridx` of line 5 is 1. -/
theorem test_sched_takes :
    nextHas (exec .druSched (scheduling ⟨0x11, 2, 0x2000000C⟩)) (fun t =>
      t.currentBand = ⟨0x11, 1, 0x2000000C⟩ ∧ t.rtok = 0x11 ∧ t.ridx = 1 ∧ wbGntPin t) := by decide

/-- TB2. -/
theorem test_sched_reseeds :
    nextHas (exec .druSched (scheduling ⟨0x11, 0, 0x2000000C⟩)) (fun t =>
      t.currentBand = ⟨0x22, 1, 0⟩ ∧ t.dru.phase = .sched) := by decide

/-- TB10 and TB11. -/
theorem test_wb8 :
    nextHas (exec (.rastWb8 15 0x5A) (render .renderWait)) (fun t => t.wb.read 15 = some 0x5A ∧ t.wb.read 14 = some 0xA5)
      ∧ raises (exec (.rastWb8 16 0xFF) (render .renderWait)) (render .renderWait) .wbRange := by decide

/-- TB9 and TB12: little-endian. -/
theorem test_wb32 :
    nextHas (exec (.rastWb32 1 0x44332211) (render .renderWait)) (fun t =>
      t.wb = cells [1, 2, 3, 4, 0x11, 0x22, 0x33, 0x44, 0xA5, 0xA5, 0xA5, 0xA5, 0xA5, 0xA5, 0xA5, 0xA5])
      ∧ raises (exec (.rastWb32 4 0) (render .renderWait)) (render .renderWait) .wbRange := by decide

/-- TB14 and TB16. -/
theorem test_resp :
    nextHas (exec (.rastResp 0x00080000) (render .renderWait)) (fun t => t.workShape = ⟨0, 8⟩ ∧ t.dru.phase = .idle)
      ∧ raises (exec (.rastResp 0x00100000) (render .renderWait)) (render .renderWait) .shapeLength := by decide

/-- TR13 and TR14. -/
theorem test_hookAck :
    nextHas (exec .hookAck (render .hookWait)) (fun t => t.hookReq = false ∧ t.dru.phase = .sched)
      ∧ nextHas (exec .hookAck { render .hookWait with dru := ⟨.hookWait, .active, 0, 8, 0⟩ })
        (fun t => t.dru.phase = .idle) := by decide

/-! ### Register accesses (section 2.6) -/

/-- TG2 and TG17. -/
theorem test_wrCtrl :
    nextHas (exec (.wrCtrl 0x3) State.reset) (fun t => t.videoEn ∧ t.syncEn ∧ ctrlWord t = 0x3)
      ∧ nextHas (exec (.wrCtrl 0x3) (configuring .drain)) (fun t => ctrlWord t = 0) := by decide

/-- TG10, TG11. -/
theorem test_ignored_writes :
    nextHas (exec (.wrStatus 0xFFFF) running) (fun t => t = running)
      ∧ nextHas (exec (.wrLine 0xFFFF) running) (fun t => t = running)
      ∧ nextHas (exec (.wrReserved 15 5) running) (fun t => t = running) := by decide

/-- TG9 and TG18. -/
theorem test_wrBandHead :
    nextHas (exec (.wrBandHead 0x20000000) running) (fun t => t.bandHead = 0x20000000 ∧ t.bandTaken = false)
      ∧ nextHas (exec (.wrBandHead 0x40) (configuring .drain)) (fun t => t.bandHead = 0x40) := by decide

/-- TG5 and TG16. -/
theorem test_wrTLinePixels :
    nextHas (exec (.wrTLinePixels 0x00010010) State.reset) (fun t => t.sh = { Timing.zero with linePixels := 0x10 })
      ∧ nextHas (exec (.wrTLinePixels 7) (configuring .quiesce)) (fun t => t.sh = t0) := by decide

/-- R95: which field each offset writes. -/
theorem test_timing_writes_hit_their_fields :
    nextHas (exec (.wrTSyncPixels 7) State.reset) (fun t => t.sh = { Timing.zero with syncPixels := 7 })
      ∧ nextHas (exec (.wrTBackPorchPixels 7) State.reset) (fun t => t.sh = { Timing.zero with backPorchPixels := 7 })
      ∧ nextHas (exec (.wrTVideoLead 7) State.reset) (fun t => t.sh = { Timing.zero with videoLead := 7 })
      ∧ nextHas (exec (.wrTVideoPixels 7) State.reset) (fun t => t.sh = { Timing.zero with videoPixels := 7 })
      ∧ nextHas (exec (.wrTVsyncStartLine 7) State.reset) (fun t => t.sh = { Timing.zero with vsyncStartLine := 7 })
      ∧ nextHas (exec (.wrTVsyncEndLine 7) State.reset) (fun t => t.sh = { Timing.zero with vsyncEndLine := 7 })
      ∧ nextHas (exec (.wrTVideoStartLine 7) State.reset) (fun t => t.sh = { Timing.zero with videoStartLine := 7 })
      ∧ nextHas (exec (.wrTVideoEndLine 7) State.reset) (fun t => t.sh = { Timing.zero with videoEndLine := 7 }) := by
  decide

/-- TG6 and TG7. -/
theorem test_wrTPolarity_wrTClockConfig :
    nextHas (exec (.wrTPolarity 0x2) State.reset) (fun t => t.sh = { Timing.zero with vpol := true })
      ∧ nextHas (exec (.wrTClockConfig 0xDEADBEEF) State.reset) (fun t =>
        t.sh.clockConfig = 0xDEADBEEF ∧ clkCfgPin t = 0) := by decide

/-- TG14 and TG15. -/
theorem test_wrCmd :
    nextHas (exec (.wrCmd 0x2) State.reset) (fun t => t = State.reset)
      ∧ nextHas (exec (.wrCmd 0x11) { State.reset with videoEn := true }) (fun t =>
        statusWord t = 0x200 ∧ ctrlWord t = 0) := by decide

/-- Section 0.3's STATUS words, and LINE at position 13 of line 5. -/
theorem test_status_and_line_reads :
    nextHas (exec .rdStatus running) (fun t => t.rdData = 0x50B)
      ∧ nextHas (exec .rdStatus { at_ 0 0 .finishing with bandTaken := false }) (fun t => t.rdData = 0x506)
      ∧ nextHas (exec .rdLine (at_ 13 5 .active)) (fun t => t.rdData = 0x000D0005) := by decide

/-- TG2, TG7, TG8, TG12, TG13. -/
theorem test_control_reads :
    nextHas (exec .rdCtrl running) (fun t => t.rdData = 0x3)
      ∧ nextHas (exec .rdBandHead { running with bandHead := 0x20000003 }) (fun t => t.rdData = 0x20000003)
      ∧ nextHas (exec .rdTClockConfig running) (fun t => t.rdData = 0x1234)
      ∧ nextHas (exec .rdCmd { running with rdData := 7 }) (fun t => t.rdData = 0)
      ∧ nextHas (exec (.rdReserved 63) { running with rdData := 7 }) (fun t => t.rdData = 0) := by decide

/-- The timing registers read `SH`, `T0` of section 0.2. -/
theorem test_timing_reads :
    nextHas (exec .rdTLinePixels running) (fun t => t.rdData = 16)
      ∧ nextHas (exec .rdTSyncPixels running) (fun t => t.rdData = 2)
      ∧ nextHas (exec .rdTBackPorchPixels running) (fun t => t.rdData = 3)
      ∧ nextHas (exec .rdTVideoLead running) (fun t => t.rdData = 1)
      ∧ nextHas (exec .rdTVideoPixels running) (fun t => t.rdData = 8)
      ∧ nextHas (exec .rdTPolarity { running with sh := { t0 with vpol := true } }) (fun t => t.rdData = 2)
      ∧ nextHas (exec .rdTVsyncStartLine running) (fun t => t.rdData = 1)
      ∧ nextHas (exec .rdTVsyncEndLine running) (fun t => t.rdData = 2)
      ∧ nextHas (exec .rdTVideoStartLine running) (fun t => t.rdData = 4)
      ∧ nextHas (exec .rdTVideoEndLine running) (fun t => t.rdData = 8) := by decide

/-- TX2: after a reset in `RENDER_WAIT`, host memory stays and the late answer is ignored. -/
theorem test_reset :
    nextHas (exec .reset { render .renderWait with hostMem := nodes, fault := some .busError }) (fun t =>
      t.fault = none ∧ t.dru.phase = .idle ∧ t.hostMem = nodes ∧ nextHas (exec (.rastResp 0x80000) t) (fun u => u = t)) := by
  decide

/-- R242, R124: `WR CTRL, c | 1` writes the value bound to `c`, not what another host read has returned since. -/
theorem test_wrBack_takes_the_bound_name :
    nextHas (step { State.reset with
      syncEn := true, schedule := [.host], hostProg := [.wrBack 0 .c 0 1], hostVars := ⟨2, 0⟩, rdData := 0x50B })
      (fun t => ctrlWord t = 3) := by decide

/-- TG20: accesses of other widths, and of 32 bits at offset 0x02. -/
theorem test_bus_access_faults :
    ∀ b ∈ [HostOp.bus true 8 0x0 1, .bus false 16 0x4 0, .bus true 64 0x0 3, .bus false 32 0x2 0],
      nextHas (step { State.reset with schedule := [.host], hostProg := [b] }) (fun t =>
        t.fault = some .regAccess ∧ ctrlWord t = 0) := by decide

/-- R7: with nothing scheduled, the DRU takes its turn after the clock's. -/
theorem test_empty_schedule_takes_turns :
    nextHas (step { render .hook with druTurn := true }) (fun t => t.dru.phase = .hookWait ∧ t.hcount = 0)
      ∧ nextHas (step (render .hook)) (fun t => t.dru.phase = .hook ∧ t.hcount = 1 ∧ t.druTurn) := by decide

/-- Sections 2.7, TC7 to TC15: the edges of `WF`. -/
theorem test_wf_edges :
    t0.wf ∧ { t0 with videoLead := 5 }.wf ∧ { t0 with videoLead := 6 }.wf = false ∧ { t0 with linePixels := 14 }.wf
      ∧ { t0 with linePixels := 13 }.wf = false ∧ { t0 with vsyncEndLine := 3 }.wf = false
      ∧ { t0 with videoEndLine := 5 }.wf = false ∧ { t0 with vsyncStartLine := 0 }.wf = false
      ∧ (⟨4, 1, 1, 0, 1, false, false, 1, 2, 4, 6, 0⟩ : Timing).wf := by decide

/-! ### Witnesses: states and operands that meet the hypotheses of the statements

Each is named after its statement; one conjunct for each clause, at a boundary where the clause has one. -/

theorem cells_wf : Buffer.wf 16 running.wb ∧ Buffer.wf 16 running.sb ∧ Memory.wf nodes := by decide

/-- A state meets the invariant where these finite facts hold. -/
theorem running_inv : running.Inv where
  hostMemory := by decide
  workingBuffer := by decide
  scanBuffer := by decide
  timing := by decide
  streaming := by decide
  quiesced := by decide
  displayed := by decide
  shape := by decide
  copyLength := by decide
  transferCount := by decide
  beatIndex := by decide
  hook := by decide
  scheduling := by decide

theorem running_filled : running.Filled where
  workingBuffer := by decide
  counted := by decide
  streamed := by decide
  copied := by decide
  tailed := by decide
  terminated := by decide

theorem streaming_inv : streaming.Inv where
  hostMemory := by decide
  workingBuffer := by decide
  scanBuffer := by decide
  timing := by decide
  streaming := by decide
  quiesced := by decide
  displayed := by decide
  shape := by decide
  copyLength := by decide
  transferCount := by decide
  beatIndex := by decide
  hook := by decide
  scheduling := by decide

theorem streaming_inLine : streaming.InLine where
  armed := by decide
  room := by decide
  position := by decide

theorem reset_inv : State.reset.Inv where
  hostMemory := by decide
  workingBuffer := by decide
  scanBuffer := by decide
  timing := by decide
  streaming := by decide
  quiesced := by decide
  displayed := by decide
  shape := by decide
  copyLength := by decide
  transferCount := by decide
  beatIndex := by decide
  hook := by decide
  scheduling := by decide

/-- A CONFIGURE about to load. -/
theorem configuring_inv : (configuring .quiesce).Inv where
  hostMemory := by decide
  workingBuffer := by decide
  scanBuffer := by decide
  timing := by decide
  streaming := by decide
  quiesced := by decide
  displayed := by decide
  shape := by decide
  copyLength := by decide
  transferCount := by decide
  beatIndex := by decide
  hook := by decide
  scheduling := by decide

/-- The deferred work at any phase, with any band. -/
theorem render_inv (p : DruPhase) (b : Band) (m : Cells) (hm : Memory.wf m) :
    ({ render p with currentBand := b, hostMem := m } : State).Inv :=
  { running_inv with
    hostMemory := hm
    copyLength := (by decide : 8 < 16)
    hook := (by cases p <;> decide : decide (p = .hookWait) = true ↔ p = .hookWait)
    scheduling := fun _ => (by decide : visible t0 5 = true) }

/-- A state with the same fields but for the line, its display state and the position. -/
theorem line3_inv : ({ at_ 13 3 .blank with bandTaken := false } : State).Inv where
  hostMemory := by decide
  workingBuffer := by decide
  scanBuffer := by decide
  timing := by decide
  streaming := by decide
  quiesced := by decide
  displayed := by decide
  shape := by decide
  copyLength := by decide
  transferCount := by decide
  beatIndex := by decide
  hook := by decide
  scheduling := by decide

theorem witness_DecodeOfEncode :
    Instr.tick.wellFormed = true ∧ (Instr.rastWb32 0x3FFF 0xFFFFFFFF).wellFormed = true
      ∧ (Instr.wrReserved 15 0).wellFormed = true ∧ (Instr.wrReserved 17 0).wellFormed = true
      ∧ (Instr.rdReserved 63).wellFormed = true := by decide

theorem witness_EncodeOfDecode :
    decode 0x2001#16 0x443322113FFF#48 = .ok (.rastWb32 0x3FFF#14 0x44332211#32)
      ∧ decode 0x30FC#16 0xFFFFFFFF#48 = .ok (.wrReserved 63#6 0xFFFFFFFF#32) := ⟨rfl, rfl⟩

theorem witness_ReservedDescriptorsNameNoOperation :
    6 ≤ (opClass 0x6000#16).toNat ∧ 6 ≤ (opClass 0xFFFF#16).toNat
      ∧ (opClass 0x0008#16 = 0#4 ∧ 7 < (opCode 0x0008#16).toNat)
      ∧ (opClass 0x1006#16 = 1#4 ∧ 5 < (opCode 0x1006#16).toNat)
      ∧ (opClass 0x2004#16 = 2#4 ∧ 3 < (opCode 0x2004#16).toNat)
      ∧ (opClass 0x5001#16 = 5#4 ∧ opCode 0x5001#16 ≠ 0#12)
      ∧ (opClass 0x3100#16 = 3#4 ∧ 0x100 ≤ (opCode 0x3100#16).toNat)
      ∧ (opClass 0x4FFF#16 = 4#4 ∧ 0x100 ≤ (opCode 0x4FFF#16).toNat)
      ∧ (opClass 0x3001#16 = 3#4 ∧ (opCode 0x3001#16).toNat < 0x100 ∧ (opCode 0x3001#16).toNat % 4 ≠ 0)
      ∧ (opClass 0x40FF#16 = 4#4 ∧ (opCode 0x40FF#16).toNat < 0x100 ∧ (opCode 0x40FF#16).toNat % 4 ≠ 0) := by decide

/-- `running` with this next in the schedule. -/
def next (i : Input) (prog : List HostOp) : State := { running with schedule := [i], hostProg := prog }

theorem witness_StepRunsTheDecodedOperation :
    ((next (.op 0x1000#16 0#48) []).schedule = .op 0x1000#16 0#48 :: [] ∧ decode 0x1000#16 0#48 = .ok .druDispatch)
      ∧ decodeTableWord 64 0x5A000F2000 = some (.rastWb8 15 0x5A)
      ∧ (running.schedule = [] ∧ running.druTurn = false ∧ druStepEnabled running = none)
      ∧ { render .hook with druTurn := true }.druTurn = true ∧ druStepEnabled (render .hook) = some .druHookReq :=
  ⟨⟨rfl, rfl⟩, rfl, ⟨rfl, rfl, rfl⟩, rfl, rfl⟩

theorem witness_UndecodableStepsStop :
    (next (.op 0x6000#16 0#48) []).schedule = .op 0x6000#16 0#48 :: [] ∧ decode 0x6000#16 0#48 = .error .reservedClass
      ∧ DecodeError.reservedClass ≠ .misalignedOffset
      ∧ decode 0x4002#16 0#48 = .error .misalignedOffset ∧ (next (.op 0x4002#16 0#48) []).fault = none :=
  ⟨rfl, rfl, by decide, rfl, rfl⟩

/-- `running` with `BASE` 0x1000. -/
def based (i : Input) (prog : List HostOp) : State :=
  { next i prog with params := { Params.ofTestVectors with baseWord := 0x400 } }

/-- An address just below the block, one just past it, a misaligned offset, narrower and wider accesses, and the last register. -/
theorem witness_BusAccessRule :
    (based .host [.bus true 32 0xFFF 5]).fault = none ∧ (based .host [.bus true 32 0xFFF 5]).schedule = .host :: []
      ∧ (0xFFF#32).toNat < (based .host []).params.base ∧ (based .host []).params.base + 0x100 ≤ (0x1100#32).toNat
      ∧ ((0x10FF#32).toNat = (based .host []).params.base + 0xFF ∧ 0xFF < 0x100 ∧ 0xFF % 4 ≠ 0)
      ∧ (8 : AccessWidth) ≠ 32 ∧ (64 : AccessWidth) ≠ 32
      ∧ ((0x10FC#32).toNat = (based .host []).params.base + 0xFC ∧ 0xFC < 0x100 ∧ 0xFC % 4 = 0) := by decide

theorem witness_DruEntryTakesTheEnabledStep :
    let s (p : DruPhase) : State := { render p with schedule := [.dru] }
    (s .idle).fault = none ∧ (s .idle).schedule = .dru :: []
      ∧ ((s .idle).dru.phase = .idle ∧ { s .idle with deferPending := true }.deferPending = true)
      ∧ ((s .copy).dru.phase = .copy ∧ (s .copy).dma.busy = false)
      ∧ ((s .tail).dru.phase = .tail ∧ (s .tail).dma.busy = false)
      ∧ ((s .term).dru.phase = .term ∧ (s .term).dma.busy = false)
      ∧ (s .hook).dru.phase = .hook ∧ (s .sched).dru.phase = .sched
      ∧ ((s .idle).dru.phase = .idle ∧ (s .idle).deferPending = false) ∧ (s .hookWait).dru.phase = .hookWait
      ∧ (s .renderWait).dru.phase = .renderWait
      ∧ { s .copy with dma := ⟨true, 0, 0, 9⟩ }.dma.busy = true := by decide

theorem exec_ne_next {o : Host.Outcome State Fault Refusal} {s : State}
    (h : nextHas o (fun t => decide (t ≠ s)) = true) : o ≠ .next s := by
  rintro rfl
  simp [nextHas] at h

theorem witness_AtMostOneDruStepIsEnabled :
    (render .hook).fault = none ∧ exec .druHookReq (render .hook) ≠ .next (render .hook) :=
  ⟨rfl, exec_ne_next (by decide)⟩

theorem witness_RaisingWritesOnlyTheFault :
    ∃ t, exec (.rastWb8 16 0xFF) (render .renderWait) = .next t ∧ t.fault = some .wbRange := ⟨_, rfl, rfl⟩

theorem witness_FaultedMachineTakesNoStep :
    let s : State := { next (.op 0x5000#16 0#48) [] with fault := some .busError }
    s.fault = some .busError ∧ ∃ t, step s = .next t := ⟨rfl, _, rfl⟩

theorem witness_EveryOperationAnswersANextState : running.fault = none := rfl

theorem witness_IdleAndDrainTicks :
    (State.reset.fault = none ∧ State.reset.run = false ∧ State.reset.cfgPhase = .idle)
      ∧ let s : State := { running with cfgPhase := .drain }
        s.fault = none ∧ s.cfgPhase = .drain ∧ s.dma.busy = false := by decide

theorem witness_QuiesceTickWaitsOrFaults :
    let s := configuring .quiesce
    s.fault = none ∧ s.cfgPhase = .quiesce ∧ { s with deferPending := true }.deferPending = true
      ∧ { s with dru := ⟨.hookWait, .blank, 0, 0, 0⟩ }.dru.phase ≠ .idle
      ∧ s.deferPending = false ∧ s.dru.phase = .idle ∧ { s with sh := Timing.zero }.sh.wf = false := by decide

theorem witness_QuiesceTickLoads :
    let s := configuring .quiesce
    s.fault = none ∧ s.cfgPhase = .quiesce ∧ s.deferPending = false ∧ s.dru.phase = .idle ∧ s.sh.wf = true := by decide

/-- Inside the sync pulse, at its end, and at the wrap. -/
theorem witness_RunningTickBetweenEvents (h : Half) (hh : h = 1#16 ∨ h = 2#16 ∨ h = 15#16) :
    let s := at_ h 5 .active
    s.fault = none ∧ s.run = true ∧ s.cfgPhase = .idle ∧ s.dma.busy = false ∧ s.hcount ≠ s.savCmp
      ∧ s.hcount.toNat ≠ s.t.syncPixels.toNat + s.t.backPorchPixels.toNat + s.t.videoPixels.toNat := by
  rcases hh with rfl | rfl | rfl <;> decide

/-- At the end of active video, and elsewhere. -/
theorem witness_RunningTickMovesTheBeam :
    (let s : State := { at_ 13 3 .blank with bandTaken := false };
      s.Inv ∧ s.run = true ∧ s.cfgPhase ≠ .drain ∧ s.hcount.toNat = s.t.hend ∧ ∃ t, exec .tick s = .next t ∧ t.fault = none)
      ∧ running.Inv ∧ running.run = true ∧ running.cfgPhase ≠ .drain ∧ running.hcount.toNat ≠ running.t.hend
      ∧ ∃ t, exec .tick running = .next t ∧ t.fault = none :=
  ⟨⟨line3_inv, rfl, by decide, by decide, _, rfl, rfl⟩, running_inv, rfl, by decide, by decide, _, rfl, rfl⟩

theorem witness_TickIsItsSubEvents :
    running.fault = none ∧ ({ running with cfgPhase := .drain }.cfgPhase = .drain ∧ running.dma.busy = false)
      ∧ (configuring .quiesce).cfgPhase = .quiesce ∧ (running.run = true ∧ running.cfgPhase = .idle)
      ∧ ({ streaming with cfgPhase := .drain }.cfgPhase = .drain ∧ streaming.dma.busy = true) := by decide

theorem witness_ConfigurationSubEvents :
    let s := configuring .quiesce
    s.fault = none ∧ (configuring .drain).dma.busy = false ∧ (configuring .drain).cfgPhase ≠ .quiesce
      ∧ s.cfgPhase = .quiesce ∧ s.deferPending = false ∧ s.dru.phase = .idle ∧ s.sh.wf = true
      ∧ { s with sh := Timing.zero }.sh.wf = false := by decide

/-- The minimal set of TC15, at which the bounds are tight. -/
theorem witness_WellFormedTimingBounds : (⟨4, 1, 1, 0, 1, false, false, 1, 2, 4, 6, 0⟩ : Timing).wf = true := by decide

/-- The stream that just fits (TD6) and the one that is a byte too long (TD7). -/
theorem witness_SavRule :
    State.reset.run = false ∧ running.run = true ∧ (at_ 5 5 .active).hcount ≠ (at_ 5 5 .active).savCmp
      ∧ (at_ 4 4 .starting).display.bits.getLsbD 1 = false ∧ { at_ 4 5 .active with dmaCount := 0 }.dmaCount = 0#17
      ∧ (let s := at_ 4 5 .active
        s.hcount = s.savCmp ∧ s.display.bits.getLsbD 1 = true ∧ s.dmaCount ≠ 0#17 ∧ s.dma.busy = false
          ∧ s.hcount.toNat + s.t.videoLead.toNat + (11#17).toNat ≤ s.t.linePixels.toNat
          ∧ s.t.linePixels.toNat < s.hcount.toNat + s.t.videoLead.toNat + (12#17).toNat)
      ∧ { at_ 4 5 .active with dma := ⟨true, 0, 0, 9⟩ }.dma.busy = true := by decide

theorem witness_BeatRule :
    State.reset.run = false ∧ running.run = true ∧ running.dma.busy = false ∧ streaming.dma.busy = true
      ∧ { streaming with dma := ⟨true, 1, 0, 9⟩ }.dma.delay ≠ 0#16 ∧ streaming.dma.delay = 0#16
      ∧ streaming.sb.read streaming.dma.idx.toNat = some 9
      ∧ { streaming with sb := [] }.sb.read streaming.dma.idx.toNat = none := by decide

/-- Every arm of the EAV but STARTING, and the last offset before `SAV_RANGE` (TV2). -/
theorem witness_EavRule (l : Half)
    (hl : l = 0#16 ∨ l = 1#16 ∨ l = 2#16 ∨ l = 4#16 ∨ l = 5#16 ∨ l = 7#16) :
    let s := { at_ 13 l .blank with workShape := ⟨8, 0⟩ }
    s.fault = none ∧ s.run = true ∧ s.t.wf = true ∧ s.hcount.toNat = s.t.hend
      ∧ s.currentLine.toNat + 1 ≠ s.t.videoStartLine.toNat
      ∧ s.t.hstart + s.workShape.offset.toNat < s.t.hend + s.t.videoLead.toNat := by
  rcases hl with rfl | rfl | rfl | rfl | rfl | rfl <;> decide

/-- No list, a list at either end of a mapped region, a misaligned head, and a head whose last word is unmapped. -/
theorem witness_EavStartingRule :
    let s := at_ 13 3 .blank
    (s.fault = none ∧ s.run = true ∧ s.t.wf = true ∧ s.hcount.toNat = s.t.hend
      ∧ s.currentLine.toNat + 1 = s.t.videoStartLine.toNat
      ∧ s.t.hstart + s.workShape.offset.toNat < s.t.hend + s.t.videoLead.toNat)
      ∧ (0x20000002#32).toNat % 4 ≠ 0 ∧ s.bandHead = 0#32
      ∧ ((0x20000FF8#32).toNat % 4 = 0 ∧ isMapped s.params ((0x20000FF8#32).toNat + 8) = false)
      ∧ ((0x20000000#32).toNat % 4 = 0 ∧ ∀ k, k ∈ [0, 4, 8] → isMapped s.params ((0x20000000#32).toNat + k) = true)
      ∧ ((0x20000FF4#32).toNat % 4 = 0 ∧ ∀ k, k ∈ [0, 4, 8] → isMapped s.params ((0x20000FF4#32).toNat + k) = true) := by
  decide

/-- The first offset past the range (TV3). -/
theorem witness_EavGuards :
    let s := { at_ 13 5 .active with workShape := ⟨9, 0⟩ }
    State.reset.run = false ∧ (at_ 12 5 .active).hcount.toNat ≠ (at_ 12 5 .active).t.hend
      ∧ s.fault = none ∧ s.run = true ∧ s.hcount.toNat = s.t.hend
      ∧ s.t.hend + s.t.videoLead.toNat ≤ s.t.hstart + s.workShape.offset.toNat := by decide

theorem witness_AdvanceAndSampleRules :
    running.fault = none ∧ State.reset.run = false ∧ running.run = true
      ∧ (at_ 15 5 .active).hcount.toNat + 1 = (at_ 15 5 .active).t.linePixels.toNat
      ∧ (at_ 14 5 .active).hcount.toNat + 1 ≠ (at_ 14 5 .active).t.linePixels.toNat := by decide

theorem witness_DispatchRule :
    let s : State := { running with deferPending := true }
    s.fault = none ∧ s.dru.phase = .idle ∧ s.deferPending = true := by decide

/-- The last word, the end, and an unwritten cell. -/
theorem witness_CopyRule :
    let s : State := { render .copy with dru := ⟨.copy, .active, 5, 8, 1⟩ }
    s.fault = none ∧ s.dru.phase = .copy ∧ s.dma.busy = false ∧ s.dru.copyIdx.toNat < s.dru.copyLen.toNat / 4
      ∧ (∀ j, j / 4 = s.dru.copyIdx.toNat → s.wb.read j ≠ none)
      ∧ (∃ j, j / 4 = s.dru.copyIdx.toNat ∧ { s with wb := [] }.wb.read j = none)
      ∧ (8#16).toNat / 4 ≤ (2#16).toNat := by
  refine ⟨rfl, rfl, rfl, by decide, ?_, ⟨4, rfl, rfl⟩, by decide⟩
  intro j hj
  have h : ∀ k, k < 8 → k / 4 = 1 → running.wb.read k ≠ none := by decide
  have e : j / 4 = 1 := hj
  exact h j (by omega) e

theorem witness_TailRule :
    let s : State := { render .tail with dru := ⟨.tail, .active, 5, 7, 1⟩ }
    s.fault = none ∧ s.dru.phase = .tail ∧ s.dma.busy = false
      ∧ (∀ j, 4 * (s.dru.copyLen.toNat / 4) ≤ j → j < s.dru.copyLen.toNat → s.wb.read j ≠ none)
      ∧ ∃ j, 4 * (s.dru.copyLen.toNat / 4) ≤ j ∧ j < s.dru.copyLen.toNat ∧ { s with wb := [] }.wb.read j = none := by
  refine ⟨rfl, rfl, rfl, ?_, 6, by decide, by decide, rfl⟩
  intro j _ hj
  have h : ∀ k, k < 7 → running.wb.read k ≠ none := by decide
  exact h j hj

theorem witness_TermRule :
    (render .term).fault = none ∧ (render .term).dru.phase = .term ∧ (render .term).dma.busy = false := by decide

theorem witness_HookHandshakeRule :
    (render .hook).fault = none ∧ (render .hook).dru.phase = .hook ∧ running.hookReq = false
      ∧ (render .hookWait).hookReq = true := by decide

/-- TB1 to TB7, each clause; the address that is both misaligned and unmapped falls under the misaligned one only. -/
theorem witness_SchedRule :
    let s := scheduling ⟨0x11, 2, 0x2000000C⟩
    s.fault = none ∧ s.dru.phase = .sched ∧ s.currentBand.count ≠ 0#32 ∧ s.currentBand.rast ≠ 0#32
      ∧ ((scheduling ⟨0, 1, 0⟩).currentBand.count ≠ 0#32 ∧ (scheduling ⟨0, 1, 0⟩).currentBand.rast = 0#32)
      ∧ ((scheduling ⟨0x22, 0, 0⟩).currentBand.count = 0#32 ∧ (scheduling ⟨0x22, 0, 0⟩).currentBand.next = 0#32)
      ∧ (scheduling ⟨0x11, 0, 0x30000002⟩).currentBand.next.toNat % 4 ≠ 0
      ∧ (let u := scheduling ⟨0x11, 0, 0x20000FFC⟩
        u.currentBand.next ≠ 0#32 ∧ u.currentBand.next.toNat % 4 = 0
          ∧ isMapped u.params (u.currentBand.next.toNat + 4) = false)
      ∧ (let u := scheduling ⟨0x11, 0, 0x2000000C⟩
        u.currentBand.count = 0#32
          ∧ ∀ k, k ∈ [0, 4, 8] → isMapped u.params (u.currentBand.next.toNat + k) = true) := by decide

/-- The last byte and word inside the buffer and the first outside it. -/
theorem witness_RasterizerWriteRule :
    let s := render .renderWait
    s.fault = none ∧ s.dru.phase = .renderWait ∧ running.dru.phase ≠ .renderWait
      ∧ (15#16).toNat < s.params.bufBytes ∧ s.params.bufBytes ≤ (16#16).toNat
      ∧ 4 * (3#14).toNat + 3 < s.params.bufBytes ∧ s.params.bufBytes ≤ 4 * (4#14).toNat + 3 := by decide

/-- TB15 and TB16. -/
theorem witness_RasterizerResponseRule :
    let s := render .renderWait
    s.fault = none ∧ s.dru.phase = .renderWait ∧ running.dru.phase ≠ .renderWait
      ∧ ((0x000F0000#32).extractLsb' 16 16).toNat ≤ s.params.bufBytes - 1
      ∧ s.params.bufBytes - 1 < ((0x00100000#32).extractLsb' 16 16).toNat := by decide

/-- The premise of the register access statements (`WriteCtrlRule`, `WriteBandHeadRule`, `WriteTimingRule`, `WriteCmdRule`,
`IgnoredWritesChangeNothing`, `ReadRule`), idle and busy. -/
theorem witness_RegisterAccesses :
    running.fault = none ∧ running.cfgPhase = .idle ∧ (configuring .drain).fault = none
      ∧ (configuring .drain).cfgPhase ≠ .idle ∧ (0xFFFFFFF1#32).toNat % 16 = 1 := by decide

/-- Each pin at a change: CFG_LOAD, the hook handshake, the request and its answer. -/
theorem witness_UnsampledPins :
    let sched := scheduling ⟨0x11, 2, 0⟩
    ((configuring .quiesce).Inv ∧ (render .hook).Inv ∧ (render .hookWait).Inv ∧ sched.Inv ∧ (render .renderWait).Inv)
      ∧ nextHas (exec .tick (configuring .quiesce)) (fun t => clkCfgPin t ≠ clkCfgPin (configuring .quiesce))
      ∧ nextHas (exec .druHookReq (render .hook)) (fun t => hookReqPin t ≠ hookReqPin (render .hook))
      ∧ nextHas (exec .hookAck (render .hookWait)) (fun t => hookReqPin t ≠ hookReqPin (render .hookWait))
      ∧ nextHas (exec .druSched sched) (fun t => rastReqPin t ≠ rastReqPin sched)
      ∧ nextHas (exec (.rastResp 0) (render .renderWait)) (fun t => rastReqPin t ≠ rastReqPin (render .renderWait)) :=
  ⟨⟨configuring_inv, render_inv _ _ _ (by decide), render_inv _ _ _ (by decide), render_inv _ _ _ cells_wf.2.2,
    render_inv _ _ _ (by decide)⟩, by decide⟩

theorem witness_HostWaitLoop :
    (next .host [.poll 9 true]).fault = none ∧ (next .host [.poll 9 true]).schedule = .host :: []
      ∧ (next .host [.poll 9 true]).hostProg = .poll 9 true :: []
      ∧ (next .host [.sleep 9 true]).hostProg = .sleep 9 true :: [] := by decide

/-- A word write that ends at the last address. -/
theorem witness_HostMemoryWrite :
    let s := next .host [.mw 4 0xFFFFFFFC 5]
    s.fault = none ∧ s.schedule = .host :: [] ∧ s.hostProg = .mw 4 0xFFFFFFFC 5 :: []
      ∧ (0xFFFFFFFC#32).toNat + 4 ≤ 2 ^ 32 := by decide

/-- The first step, and a state another host step has changed in between. -/
theorem witness_OutputSwitchProcedures :
    let s : State := { running with schedule := [.host], hostProg := procVideoOn ++ [.rd 1 .s] }
    s.fault = none ∧ s.schedule = .host :: [] ∧ s.hostProg = procVideoOn ++ [.rd 1 .s]
      ∧ { s with hostProg := procVideoOff }.hostProg = procVideoOff ++ []
      ∧ { s with hostProg := procSyncOn }.hostProg = procSyncOn ++ []
      ∧ { s with hostProg := procSyncOff }.hostProg = procSyncOff ++ []
      ∧ nextHas (step s) (fun t =>
        let u : State := { t with schedule := [.host], syncEn := false, rdData := 0 }
        decide (u.fault = none ∧ u.schedule = .host :: [] ∧ u.hostProg = t.hostProg ∧ u.hostVars = t.hostVars)) := by
  decide

/-- The cycle of one node with count 0 (TB8), whose SCHED step stays enabled, and the clock and the DRU in turn. -/
def cycling (k : Nat) : State :=
  { State.reset with
    dru := ⟨.sched, .active, 5, 0, 0⟩, currentBand := ⟨0x11, 0, 0x20000000⟩, druTurn := k % 2 == 1
    hostMem := hostWrite (hostWrite [] 0x20000000 0x11 4) 0x20000008 0x20000000 4 }

theorem witness_EveryRunIsFair :
    isRun cycling ∧ (∀ m, 0 ≤ m → druStepEnabled (cycling m) = some .druSched) ∧ ∃ t, step running = .next t := by
  refine ⟨fun k => ?_, fun _ _ => rfl, _, rfl⟩
  have e : ∀ n, cycling n = cycling (n % 2) := fun n => by simp [cycling]
  rw [e k, e (k + 1)]
  rcases Nat.mod_two_eq_zero_or_one k with h | h
  · rw [h, show (k + 1) % 2 = 1 by omega]
    rfl
  · rw [h, show (k + 1) % 2 = 0 by omega]
    rfl

theorem witness_StepKeepsInvariant : running.Inv ∧ ∃ t, step running = .next t := ⟨running_inv, _, rfl⟩

theorem witness_NoStepReadsAnUnwrittenCell : running.Inv ∧ running.Filled ∧ ∃ t, step running = .next t :=
  ⟨running_inv, running_filled, _, rfl⟩

theorem witness_StreamsNeverOverlap :
    streaming.Inv ∧ streaming.InLine ∧ isSubEvent .tick = false ∧ ∃ t, exec .tick streaming = .next t :=
  ⟨streaming_inv, streaming_inLine, by decide, _, rfl⟩

/-- The second clause here; the first at a stream still counting down. -/
theorem witness_PixelPosition :
    streaming.Inv ∧ streaming.InLine ∧ streaming.dma.busy = true ∧ streaming.dma.delay = 0#16
      ∧ (∃ t, exec .tick streaming = .next t ∧ t.fault = none)
      ∧ (let s : State := { streaming with t := { t0 with videoLead := 2 }, dma := ⟨true, 1, 0, 9⟩ }
        s.InLine ∧ s.hcount.toNat < s.savCmp.toNat + s.t.videoLead.toNat + s.dma.idx.toNat) :=
  ⟨streaming_inv, streaming_inLine, rfl, rfl, ⟨_, rfl, rfl⟩, ⟨by decide, by decide, by decide⟩, by decide⟩

theorem render_copy_inv : (render .copy).Inv where
  hostMemory := by decide
  workingBuffer := by decide
  scanBuffer := by decide
  timing := by decide
  streaming := by decide
  quiesced := by decide
  displayed := by decide
  shape := by decide
  copyLength := by decide
  transferCount := by decide
  beatIndex := by decide
  hook := by decide
  scheduling := by decide

theorem witness_FlipIsExact :
    (let s : State := { running with deferPending := true };
      s.fault = none ∧ s.dru.phase = .idle ∧ s.deferPending = true ∧ s.display.bits.getLsbD 0 = true)
      ∧ (render .copy).Inv ∧ (render .copy).Flipping (render .copy).wb (render .copy).sb 8#16
      ∧ Instr.druCopy ≠ .reset ∧ ∃ t, exec .druCopy (render .copy) = .next t :=
  ⟨by decide, render_copy_inv, ⟨rfl, rfl, .inl ⟨rfl, by decide, fun j => by simp [render]⟩⟩, by decide, _, rfl⟩

theorem witness_BufferWriters :
    (∃ t, exec .druTerm { render .term with sb := [] } = .next t ∧ t.sb ≠ { render .term with sb := [] }.sb)
      ∧ (∃ t, exec (.rastWb8 15 0x5A) (render .renderWait) = .next t ∧ t.wb ≠ (render .renderWait).wb)
      ∧ ∃ t, exec .tick (configuring .quiesce) = .next t ∧ t.wb ≠ (configuring .quiesce).wb :=
  ⟨⟨_, rfl, by decide⟩, ⟨_, rfl, by decide⟩, _, rfl, by decide⟩

theorem witness_ActiveTimingChangesOnlyAtLoad :
    (∃ t, exec .tick (configuring .quiesce) = .next t ∧ t.t ≠ (configuring .quiesce).t)
      ∧ ∃ t, exec (.wrTLinePixels 7) running = .next t ∧ t.sh ≠ running.sh := ⟨⟨_, rfl, by decide⟩, _, rfl, by decide⟩

/-- An EAV, a CFG_LOAD and a reset that change the display state. -/
theorem witness_DisplayCycle :
    let s : State := { at_ 13 3 .blank with bandTaken := false }
    let q : State := { running with run := false, cfgPhase := .quiesce }
    (s.Inv ∧ ∃ t, exec .tick s = .next t ∧ t.display ≠ s.display)
      ∧ (q.Inv ∧ ∃ t, exec .tick q = .next t ∧ t.display ≠ q.display)
      ∧ running.Inv ∧ ∃ t, exec .reset running = .next t ∧ t.display ≠ running.display :=
  ⟨⟨line3_inv, _, rfl, by decide⟩,
    ⟨{ running_inv with
        timing := by decide
        streaming := by decide
        quiesced := by decide
        displayed := by decide }, _, rfl, by decide⟩,
    running_inv, _, rfl, by decide⟩

theorem witness_BandHandoff :
    (let s : State := { at_ 13 3 .blank with bandTaken := false };
      s.bandTaken = false ∧ ∃ t, exec .tick s = .next t ∧ t.bandTaken = true)
      ∧ running.bandTaken = true ∧ ∃ t, exec (.wrBandHead 0) running = .next t ∧ t.bandTaken = false :=
  ⟨⟨rfl, _, rfl, by decide⟩, rfl, _, rfl, rfl⟩

theorem witness_VsyncPulse :
    running.Inv ∧ (∃ t, exec .tick running = .next t)
      ∧ (running.run = true → (running.vsyncLevel = running.t.vpol ↔
        running.t.vsyncStartLine.toNat < running.currentLine.toNat
          ∧ running.currentLine.toNat ≤ running.t.vsyncEndLine.toNat)) := ⟨running_inv, ⟨_, rfl⟩, by decide⟩

/-- A TICK that leaves the generator stopped, and the one that starts it. -/
theorem witness_StoppedGeneratorDoesNothing :
    (State.reset.Inv ∧ State.reset.run = false ∧ Instr.tick ≠ .reset
        ∧ ∃ t, exec .tick State.reset = .next t ∧ t.run = false)
      ∧ (configuring .quiesce).Inv ∧ (configuring .quiesce).run = false
      ∧ ∃ t, exec .tick (configuring .quiesce) = .next t ∧ t.run = true :=
  ⟨⟨reset_inv, rfl, by decide, _, rfl, rfl⟩, configuring_inv, rfl, _, rfl, rfl⟩

end Sys2Proof.Tests
end

section
/-! SUPPORT. The statements of spec/00_scope.md: the operation a step runs, the fairness of an endless run, and the host's
memory writes. First the facts they share: what `fetch` answers for each kind of schedule entry, and how the schedule and the
turn move on. -/

namespace Sys2Proof.Machine

/-! ### What comes next, by the schedule -/

theorem step_of_fetch_run {s u : State} {i : Instr} (h : fetch s = .run i u) : step s = exec i u := by
  simp only [step, h]

theorem step_of_fetch_done {s : State} {o : Host.Outcome State Fault Refusal} (h : fetch s = .done o) : step s = o := by
  simp only [step, h]

theorem fetch_nil {s : State} (h : s.schedule = []) : fetch s = takeTurn s := by
  simp only [fetch, h]

theorem fetch_op {s : State} {op : BitVec 16} {data : BitVec 48} {rest : List Input}
    (h : s.schedule = .op op data :: rest) : fetch s = opAction (s.popTo rest) op data := by
  simp only [fetch, h]

theorem fetch_host {s : State} {rest : List Input} (h : s.schedule = .host :: rest) :
    fetch s = hostStep (s.popTo rest) := by
  simp only [fetch, h]

theorem opAction_ok {op : BitVec 16} {data : BitVec 48} {i : Instr} (h : decode op data = .ok i) (s : State) :
    opAction s op data = .run i s := by
  simp only [opAction, h]

/-- In its turn the DRU takes its enabled step and passes the turn to the clock. -/
theorem takeTurn_dru {s : State} {i : Instr} (ht : s.druTurn = true) (hi : druStepEnabled s = some i) :
    takeTurn s = .run i { s with druTurn := false } := by
  simp only [takeTurn, ht, if_true, hi]

/-- The clock steps in its own turn, and in the DRU's while no DRU step is enabled. -/
theorem takeTurn_clock {s : State} (h : s.druTurn = false ∨ druStepEnabled s = none) :
    takeTurn s = .run .tick { s with druTurn := true } := by
  rcases h with h | h <;> simp [takeTurn, h]

/-- The entry of a table word holds what `decodeTableWord` decodes. -/
theorem inputOfTableWord_of_decode {nbits w : Nat} {i : Instr} (h : decodeTableWord nbits w = some i) :
    ∃ op data, inputOfTableWord nbits w = .op op data ∧ decode op data = .ok i := by
  refine ⟨_, _, rfl, ?_⟩
  simp only [decodeTableWord] at h
  split at h
  · cases h
    assumption
  · cases h

/-! ### How the schedule and the turn move on -/

theorem State.HostSide.schedule {rest : List Input} {s u : State} (h : State.HostSide rest s u) : u.schedule = rest := by
  obtain ⟨_, _, _, _, _, rfl, _⟩ := h
  rfl

/-- A step uses up one entry of the schedule (notes/assumptions/1.md). -/
theorem step_schedule {s t : State} (e : step s = .next t) : t.schedule = s.schedule.tail := by
  rcases step_cases e with ⟨i, u, v, vars, hu, hv, rfl⟩ | ⟨_, ht⟩ | ⟨_, u, hu, rfl⟩
  · exact (exec_schedule hv).1.trans hu.schedule
  · exact ht.schedule
  · exact hu.schedule

/-- An operation keeps the turn that `fetch` has set. -/
theorem step_druTurn {s u t : State} {i : Instr} (h : fetch s = .run i u) (e : step s = .next t) :
    t.druTurn = u.druTurn :=
  (exec_schedule (step_of_fetch_run h ▸ e)).2

/-! ### Endless runs (R7) -/

theorem run_schedule {r : Nat → State} (hr : isRun r) (n : Nat) : (r n).schedule = (r 0).schedule.drop n := by
  induction n with
  | zero => rfl
  | succ n ih => rw [step_schedule (hr n), ih, List.tail_drop]

/-- A schedule is finite: after every position it is used up at some later one. -/
theorem run_schedule_nil {r : Nat → State} (hr : isRun r) (k : Nat) : ∃ m, k ≤ m ∧ (r m).schedule = [] :=
  ⟨max k (r 0).schedule.length, le_max_left _ _, by
    rw [run_schedule hr, List.drop_eq_nil_of_le (le_max_right _ _)]⟩

/-- With nothing scheduled the clock steps now, or after the one DRU step of this turn. -/
theorem tick_now_or_next {s t : State} (hs : s.schedule = []) (e : step s = .next t) : s.runs .tick ∨ t.runs .tick := by
  by_cases h : s.druTurn = false ∨ druStepEnabled s = none
  · exact .inl ⟨_, (fetch_nil hs).trans (takeTurn_clock h)⟩
  · simp only [not_or, Bool.not_eq_false, ← ne_eq, Option.ne_none_iff_exists'] at h
    obtain ⟨hturn, i, hi⟩ := h
    have clockNext : t.druTurn = false := step_druTurn ((fetch_nil hs).trans (takeTurn_dru hturn hi)) e
    have ht : t.schedule = [] := by rw [step_schedule e, hs, List.tail_nil]
    exact .inr ⟨_, (fetch_nil ht).trans (takeTurn_clock (.inl clockNext))⟩

/-- With nothing scheduled a DRU step enabled now and next is taken now, or after the one TICK of this turn. -/
theorem dru_now_or_next {s t : State} {i : Instr} (hs : s.schedule = []) (e : step s = .next t)
    (hi : druStepEnabled s = some i) (hi' : druStepEnabled t = some i) : s.runs i ∨ t.runs i := by
  cases hturn : s.druTurn with
  | true => exact .inl ⟨_, (fetch_nil hs).trans (takeTurn_dru hturn hi)⟩
  | false =>
    have druNext : t.druTurn = true := step_druTurn ((fetch_nil hs).trans (takeTurn_clock (.inl hturn))) e
    have ht : t.schedule = [] := by rw [step_schedule e, hs, List.tail_nil]
    exact .inr ⟨_, (fetch_nil ht).trans (takeTurn_dru druNext hi')⟩

/-- Settles O10: a schedule is finite, and once it is used up no agent waits for its turn longer than one step. -/
theorem everyRunIsFair : Obligations.EveryRunIsFair := by
  unfold Obligations.EveryRunIsFair
  refine ⟨fun _ _ => step_schedule, fun r hr => ⟨fun k => ?_, fun k i hi => ?_⟩⟩
  · obtain ⟨m, hk, hs⟩ := run_schedule_nil hr k
    rcases tick_now_or_next hs (hr m) with h | h
    · exact ⟨m, hk, h⟩
    · exact ⟨m + 1, by omega, h⟩
  · obtain ⟨m, hk, hs⟩ := run_schedule_nil hr k
    rcases dru_now_or_next hs (hr m) (hi m hk) (hi (m + 1) (by omega)) with h | h
    · exact ⟨m, hk, h⟩
    · exact ⟨m + 1, by omega, h⟩

/-! ### Host memory writes (R10, R124) -/

theorem hostStep_mw {s : State} {n v : Nat} {addr : Word} {prog : List HostOp} (hf : s.fault = none)
    (hp : s.hostProg = .mw n addr v :: prog) (hn : addr.toNat + n ≤ 2 ^ 32) :
    hostStep s = .done (.next { s with hostProg := prog, hostMem := hostWrite s.hostMem addr.toNat v n }) := by
  simp only [hostStep, hp, if_pos hn, agentStep_ok hf]

/-- Byte `j` of a value, its bits from `8 * j` on. -/
theorem valueByte_eq (v j : Nat) : valueByte v j = BitVec.ofNat 8 (v / 2 ^ (8 * j)) := by
  rw [valueByte, Nat.pow_mul]

/-- Settles O47: the step is `hostWrite`, and `hostByte_hostWrite` says what that leaves at every address. -/
theorem hostMemoryWrite : Obligations.HostMemoryWrite := by
  unfold Obligations.HostMemoryWrite
  intro s n addr v rest prog hf hs hp hn
  have write := (fetch_host hs).trans (hostStep_mw (s := s.popTo rest) hf hp hn)
  refine ⟨hostWrite s.hostMem addr.toNat v n, step_of_fetch_done write, fun a => ?_⟩
  rw [hostByte_hostWrite, valueByte_eq]

/-! ### The operation a step runs (R72, R74, R121) -/

theorem step_op {s : State} {op : BitVec 16} {data : BitVec 48} {rest : List Input} {i : Instr}
    (hs : s.schedule = .op op data :: rest) (hd : decode op data = .ok i) : step s = exec i (s.popTo rest) :=
  step_of_fetch_run ((fetch_op hs).trans (opAction_ok hd _))

/-- The operation placed by `withFetchWord` runs in the state in which it was placed. -/
theorem step_withFetchWord {s : State} {nbits w : Nat} {i : Instr} (h : decodeTableWord nbits w = some i) :
    step (s.withFetchWord nbits w) = exec i s := by
  obtain ⟨op, data, hin, hd⟩ := inputOfTableWord_of_decode h
  have hs : (s.withFetchWord nbits w).schedule = .op op data :: s.schedule := by rw [State.withFetchWord, hin]
  exact step_op hs hd

/-- Settles O5, by the three ways an operation comes next: scheduled, placed by `withFetchWord`, or in turn. -/
theorem stepRunsTheDecodedOperation : Obligations.StepRunsTheDecodedOperation := by
  unfold Obligations.StepRunsTheDecodedOperation
  refine ⟨fun _ _ _ _ _ => step_op, fun _ _ _ _ => step_withFetchWord, fun s hs => ⟨fun i ht hi => ?_, fun h => ?_⟩⟩
  · exact step_of_fetch_run ((fetch_nil hs).trans (takeTurn_dru ht hi))
  · exact step_of_fetch_run ((fetch_nil hs).trans (takeTurn_clock h))

end Sys2Proof.Machine
end

section
/-! SUPPORT. The control part of the state (spec/10_state.md R23 to R35, R41): what each operation writes of it, said once, and
which operation can move the clock token, the timings, the display state, the handoff flag and the two requests. -/

namespace Sys2Proof.Machine

/-! ### Guards -/

theorem drainReady_iff (s : State) : drainReady s = true ↔ s.cfgPhase = .drain ∧ s.dma.busy = false := by
  simp [drainReady]

theorem loadReady_iff (s : State) : loadReady s = true ↔ s.deferPending = false ∧ s.dru.phase = .idle := by
  simp [loadReady]

theorem dispatchEnabled_iff (s : State) : dispatchEnabled s = true ↔ s.dru.phase = .idle ∧ s.deferPending = true := by
  simp [dispatchEnabled]

theorem copyEnabled_iff (s : State) : copyEnabled s = true ↔ s.dru.phase = .copy ∧ s.dma.busy = false := by
  simp [copyEnabled]

theorem tailEnabled_iff (s : State) : tailEnabled s = true ↔ s.dru.phase = .tail ∧ s.dma.busy = false := by
  simp [tailEnabled]

theorem termEnabled_iff (s : State) : termEnabled s = true ↔ s.dru.phase = .term ∧ s.dma.busy = false := by
  simp [termEnabled]

theorem hookReqEnabled_iff (s : State) : hookReqEnabled s = true ↔ s.dru.phase = .hook := by simp [hookReqEnabled]

theorem schedEnabled_iff (s : State) : schedEnabled s = true ↔ s.dru.phase = .sched := by simp [schedEnabled]

theorem wbGrant_iff (s : State) : wbGrant s = true ↔ s.dru.phase = .renderWait := by simp [wbGrant]

/-- A guarded step keeps what it has when it is not enabled. -/
theorem whenEnabled_induction {b : Bool} {s t : State} {body : Except Fault State} {P : State → Prop}
    (e : whenEnabled b s body = .ok t) (skip : P s) (taken : b = true → body = .ok t → P t) : P t := by
  rcases whenEnabled_eq_ok e with ⟨-, rfl⟩ | ⟨hb, e⟩
  · exact skip
  · exact taken hb e

/-- What holds of the state, and of it with the write made outside CONFIGURE, holds after the write. -/
theorem unlessBusy_induction {s t u : State} {P : State → Prop} (e : unlessBusy s u = .ok t) (dropped : P s)
    (made : s.cfgPhase = .idle → P u) : P t := by
  rcases unlessBusy_eq_ok e with rfl | ⟨hi, rfl⟩
  · exact dropped
  · exact made hi

/-! ### The control part -/

/-- The part of the state that no SAV, BEAT, ADVANCE or SAMPLE and no buffer write moves, with host memory, which the node
reads see. The rasterizer request is its pin's value (R100). -/
structure Control where
  hostMem : Cells
  t : Timing
  sh : Timing
  clkCfgO : Word
  display : DisplayState
  currentLine : Half
  bandHead : Word
  bandTaken : Bool
  currentBand : Band
  hookReq : Bool
  rastReq : Option (Word × Half)

def State.control (s : State) : Control where
  hostMem := s.hostMem
  t := s.t
  sh := s.sh
  clkCfgO := s.clkCfgO
  display := s.display
  currentLine := s.currentLine
  bandHead := s.bandHead
  bandTaken := s.bandTaken
  currentBand := s.currentBand
  hookReq := s.hookReq
  rastReq := rastReqPin s

theorem rastReqPin_eq_none {s : State} (h : s.dru.phase ≠ .renderWait) : rastReqPin s = none := by
  simp [rastReqPin, wbGrant, h]

/-- The grant is out exactly while a request is (R100, R213). -/
theorem wbGntPin_eq_isSome (s : State) : wbGntPin s = (rastReqPin s).isSome := by
  unfold wbGntPin rastReqPin
  cases wbGrant s <;> rfl

theorem sav_control {x : Half} {s t : State} (e : sav x s = .ok t) : t.control = s.control := by
  rcases sav_eq_ok e with rfl | ⟨-, -, -, -, -, rfl⟩ <;> rfl

theorem beat_control {s t : State} (e : beat s = .ok t) : t.control = s.control := by
  rcases beat_eq_ok e with ⟨-, rfl⟩ | ⟨-, -, rfl⟩ | ⟨-, -, _, -, rfl⟩ <;> rfl

theorem advance_control (x : Half) (s : State) : (advance x s).control = s.control := by
  unfold advance
  split <;> rfl

/-! ### The arm of EAV (R151, R154) -/

/-- The band that the STARTING arm takes: the node that `BAND_HEAD` points at in host memory, or `EMPTY` (R154). -/
def HeadNode (m : Cells) (head : Word) (n : Band) : Prop :=
  (head = 0 ∧ n = Band.empty)
    ∨ (head ≠ 0 ∧ n.rast = wordAt m head.toNat ∧ n.count = wordAt m (head.toNat + 4) ∧ n.next = wordAt m (head.toNat + 8))

theorem startingArm_headNode {s t : State} (e : startingArm s = .ok t) :
    ∃ n, HeadNode s.hostMem s.bandHead n
      ∧ t = { s with currentBand := n, bandTaken := true, display := .starting } := by
  obtain ⟨n, hn, rfl⟩ := startingArm_eq_ok e
  refine ⟨n, ?_, rfl⟩
  split at hn
  · exact .inl ⟨‹_›, hn⟩
  · obtain ⟨hrast, hcount, hnext⟩ := readNode_eq_ok_iff.1 hn
    exact .inr ⟨‹_›, (memRead_eq_ok_iff.1 hrast).2.2, (memRead_eq_ok_iff.1 hcount).2.2, (memRead_eq_ok_iff.1 hnext).2.2⟩

/-- The display state, the current band and the handoff flag that the arm of EAV leaves (R151). -/
inductive EavArm (c : Control) : DisplayState → Band → Bool → Prop
  | blank : c.currentLine = 0 → EavArm c .blank c.currentBand c.bandTaken
  | starting (n : Band) : c.currentLine ≠ 0 → c.currentLine.toNat + 1 = c.t.videoStartLine.toNat →
      HeadNode c.hostMem c.bandHead n → EavArm c .starting n true
  | active : c.currentLine ≠ 0 → c.currentLine = c.t.videoStartLine → EavArm c .active c.currentBand c.bandTaken
  | finishing : c.currentLine ≠ 0 → c.currentLine ≠ c.t.videoStartLine →
      c.currentLine.toNat + 1 = c.t.videoEndLine.toNat → EavArm c .finishing c.currentBand c.bandTaken
  | keeps : c.currentLine ≠ 0 →
      (c.currentLine = c.t.vsyncStartLine ∨ c.currentLine = c.t.vsyncEndLine
        ∨ (c.currentLine.toNat + 1 ≠ c.t.videoStartLine.toNat ∧ c.currentLine ≠ c.t.videoStartLine
          ∧ c.currentLine.toNat + 1 ≠ c.t.videoEndLine.toNat)) →
      EavArm c c.display c.currentBand c.bandTaken

/-- An EAV that answers a state: its arm, and the next line (R151). -/
theorem eav_arm {s t : State} (e : eav s = .ok t) :
    ∃ d b k v, EavArm s.control d b k ∧ t = { s with
      deferPending := true, savCmpNext := BitVec.ofInt 16 (savPoint s.t s.workShape.offset), evt := true,
      display := d, vsyncLevel := v, currentBand := b, bandTaken := k,
      currentLine := nextLine s.t s.currentLine } := by
  obtain ⟨-, u, hu, rfl⟩ := eav_eq_ok e
  rcases eavArm_eq_ok hu with ⟨h0, rfl⟩ | ⟨h0, hv, rfl⟩ | ⟨h0, hl, h⟩ | ⟨h0, hl, rfl⟩ | ⟨h0, hs, hl, rfl⟩ |
    ⟨h0, -, -, hs, hl, he, rfl⟩
  · exact ⟨_, _, _, _, .blank h0, rfl⟩
  · exact ⟨_, _, _, _, .keeps h0 (hv.imp_right .inl), rfl⟩
  · obtain ⟨n, hn, rfl⟩ := startingArm_headNode h
    exact ⟨_, _, _, _, .starting n h0 hl hn, rfl⟩
  · exact ⟨_, _, _, _, .active h0 hl, rfl⟩
  · exact ⟨_, _, _, _, .finishing h0 hs hl, rfl⟩
  · exact ⟨_, _, _, _, .keeps h0 (.inr (.inr ⟨hs, hl, he⟩)), rfl⟩

/-! ### The display state of a line (R48.5) -/

section
variable {x : Timing} {l : Half} {d : DisplayState}

theorem displayAt_zero : displayAt x 0 d ↔ d = .blank ∨ d = .finishing := by simp [displayAt]

theorem displayAt_before (h0 : l ≠ 0) (h : l.toNat < x.videoStartLine.toNat) : displayAt x l d ↔ d = .blank := by
  rw [displayAt, if_neg h0, if_pos h]

theorem displayAt_first (h0 : l ≠ 0) (h : l = x.videoStartLine) : displayAt x l d ↔ d = .starting := by
  rw [displayAt, if_neg h0, if_neg (by simp [h]), if_pos h]

theorem displayAt_after (h : x.videoStartLine.toNat < l.toNat) : displayAt x l d ↔ d = .active := by
  have h0 : l ≠ 0 := by rintro rfl; simp at h
  have hne : l ≠ x.videoStartLine := by rintro rfl; omega
  rw [displayAt, if_neg h0, if_neg (by omega), if_neg hne]

end

/-! ### What an operation writes of the control part -/

/-- The eleven timing writes (R233). -/
def timingWrites (v : Word) : List Instr :=
  [.wrTLinePixels v, .wrTSyncPixels v, .wrTBackPorchPixels v, .wrTVideoLead v, .wrTVideoPixels v, .wrTPolarity v,
    .wrTVsyncStartLine v, .wrTVsyncEndLine v, .wrTVideoStartLine v, .wrTVideoEndLine v, .wrTClockConfig v]

/-- The control parts that an operation other than RESET can leave when it is taken in the state `s`. -/
inductive Writes (s : State) : Instr → Control → Prop
  | keeps (i : Instr) : Writes s i s.control
  | load (i : Instr) : i = .tick ∨ i = .tickCfgLoad → s.cfgPhase = .quiesce → loadReady s = true → s.sh.wf = true →
      Writes s i (loadTiming s).control
  | eav (i : Instr) {d : DisplayState} {b : Band} {k : Bool} : i = .tick ∨ i = .tickEav → s.run = true →
      s.hcount.toNat = s.t.hend → EavArm s.control d b k →
      Writes s i { s.control with
        display := d, currentBand := b, bandTaken := k, currentLine := nextLine s.t s.currentLine }
  | hookReq : Writes s .druHookReq { s.control with hookReq := true }
  | hookAck : s.hookReq = true → Writes s .hookAck { s.control with hookReq := false, rastReq := none }
  | request : Writes s .druSched { s.control with
      currentBand := { s.currentBand with count := s.currentBand.count - 1 }
      rastReq := some (s.currentBand.rast, vindex s.t s.dru.lineSnap) }
  | node (n : Band) : Writes s .druSched { s.control with currentBand := n }
  | respond (d : Word) : Writes s (.rastResp d) { s.control with rastReq := none }
  | bandHead (v : Word) : Writes s (.wrBandHead v) { s.control with bandHead := v, bandTaken := false }
  | timing {i : Instr} {v : Word} (x : Timing) : s.cfgPhase = .idle → i ∈ timingWrites v →
      Writes s i { s.control with sh := x }

theorem Writes.of_eq {s : State} {i : Instr} {c : Control} (h : c = s.control) : Writes s i c := h ▸ .keeps i

/-- An EAV of a TICK, or alone, seen from the state in which the operation began. -/
theorem Writes.of_eavAt {i : Instr} {s u t : State} (hi : i = .tick ∨ i = .tickEav) (hrun : s.run = true)
    (hu : u.control = s.control) (e : eavAt s.hcount u = .ok t) : Writes s i t.control := by
  have ht : u.t = s.t := congrArg Control.t hu
  have hl : u.currentLine = s.currentLine := congrArg Control.currentLine hu
  rcases eavAt_eq_ok e with ⟨hend, e⟩ | ⟨-, rfl⟩
  · obtain ⟨d, b, k, v, arm, rfl⟩ := eav_arm e
    have w := Writes.eav i hi hrun (ht ▸ hend) (hu ▸ arm)
    rwa [← hu, ← ht, ← hl] at w
  · exact .of_eq hu

theorem cfgLoad_writes {i : Instr} {s t : State} (hi : i = .tick ∨ i = .tickCfgLoad) (hq : s.cfgPhase = .quiesce)
    (e : cfgLoad s = .ok t) : Writes s i t.control := by
  rcases cfgLoad_eq_ok e with ⟨-, rfl⟩ | ⟨hr, hw, rfl⟩
  · exact .keeps i
  · exact .load i hi hq hr hw

/-- The sub-events of a TICK (R130). -/
theorem tickEvents_writes {s t : State} (e : tickEvents s = .ok t) : Writes s .tick t.control := by
  rcases tickEvents_eq_ok e with ⟨-, rfl⟩ | ⟨hq, e⟩ | ⟨-, -, hrun, e⟩ | ⟨-, -, -, rfl⟩
  · exact .keeps _
  · exact cfgLoad_writes (.inl rfl) hq e
  · obtain ⟨s1, s2, s3, e1, e2, e3, rfl⟩ := generate_eq_ok e
    have hu : s2.control = s.control := (beat_control e2).trans ((sav_control e1).trans rfl)
    exact advance_control _ s3 ▸ .of_eavAt (.inl rfl) hrun hu e3
  · exact .keeps _

/-- Sub-step 1 of a TICK writes none of what a `Writes` speaks of. -/
theorem Writes.of_beginTick {s : State} {c : Control} (h : Writes s.beginTick .tick c) : Writes s .tick c := by
  cases h with
  | keeps => exact .keeps _
  | load _ hi hq hr hw => exact .load _ hi hq hr hw
  | eav _ hi hrun hend arm => exact .eav _ hi hrun hend arm
  | timing x hp hi => exact .timing x hp hi

/-- A step of the deferred render unit that writes no other control keeps the control part when no request is out before
and after. -/
theorem Writes.of_noRequest {i : Instr} {s t : State} (hs : s.dru.phase ≠ .renderWait) (ht : t.dru.phase ≠ .renderWait)
    (h : t.control = { s.control with rastReq := rastReqPin t }) : Writes s i t.control := by
  rw [rastReqPin_eq_none ht, ← rastReqPin_eq_none hs] at h
  exact .of_eq h

theorem dispatch_writes {s : State} (hp : s.dru.phase = .idle) : Writes s .druDispatch (dispatch s).control := by
  refine .of_noRequest (by simp [hp]) ?_ rfl
  unfold dispatch
  dsimp only
  split <;> simp

theorem copyStep_writes {s t : State} (hp : s.dru.phase = .copy) (e : copyStep s = .ok t) :
    Writes s .druCopy t.control := by
  rcases copyStep_eq_ok e with ⟨-, w, -, rfl⟩ | ⟨-, rfl⟩
  · exact .of_noRequest (by simp [hp]) (by simp [hp]) rfl
  · exact .of_noRequest (by simp [hp]) (by simp) rfl

theorem tailStep_writes {s t : State} (hp : s.dru.phase = .tail) (e : tailStep s = .ok t) :
    Writes s .druTail t.control := by
  obtain ⟨sb, -, rfl⟩ := tailStep_eq_ok e
  exact .of_noRequest (by simp [hp]) (by simp) rfl

theorem termStep_writes {s : State} (hp : s.dru.phase = .term) : Writes s .druTerm (termStep s).control :=
  .of_noRequest (by simp [hp]) (by simp [termStep]) rfl

theorem hookReqStep_control {s : State} (hp : s.dru.phase = .hook) :
    (hookReqStep s).control = { s.control with hookReq := true } := by
  have none_before : rastReqPin s = none := rastReqPin_eq_none (by simp [hp])
  have none_after : rastReqPin (hookReqStep s) = none := rastReqPin_eq_none (by simp)
  simp [State.control, none_before, none_after]

theorem schedStep_writes {s t : State} (hp : s.dru.phase = .sched) (e : schedStep s = .ok t) :
    Writes s .druSched t.control := by
  rcases schedStep_eq_ok e with ⟨-, -, rfl⟩ | ⟨-, -, n, -, rfl⟩ | ⟨-, -, rfl⟩
  · exact .request
  · exact .node n
  · exact .of_noRequest (by simp [hp]) (by simp) rfl

theorem hookAckStep_control (s : State) :
    (hookAckStep s).control = { s.control with hookReq := false, rastReq := none } := by
  have none_after : rastReqPin (hookAckStep s) = none := by
    refine rastReqPin_eq_none ?_
    unfold hookAckStep
    split <;> simp
  rw [← none_after]
  rfl

theorem Writes.of_timing {i : Instr} {s t : State} (v : Word) {x : Timing} (hi : i ∈ timingWrites v)
    (e : unlessBusy s { s with sh := x } = .ok t) : Writes s i t.control :=
  unlessBusy_induction (P := fun t => Writes s i t.control) e (.keeps i) fun hp => .timing x hp hi

/-- What an operation other than RESET writes of the control part. -/
theorem effect_writes {i : Instr} {s t : State} (hne : i ≠ .reset) (e : effect i s = .ok t) : Writes s i t.control := by
  have guarded {b : Bool} {body : Except Fault State} (e : whenEnabled b s body = .ok t)
      (taken : b = true → body = .ok t → Writes s i t.control) : Writes s i t.control :=
    whenEnabled_induction (P := fun t => Writes s i t.control) e (.keeps i) taken
  cases i with
  | reset => exact absurd rfl hne
  | tick =>
    obtain ⟨u, hu, e⟩ := bind_eq_ok_iff.1 e
    cases e
    exact (tickEvents_writes hu).of_beginTick
  | tickCfgDrain => exact guarded e fun _ e => by cases e; exact .keeps _
  | tickCfgLoad => exact guarded e fun hq e => cfgLoad_writes (.inr rfl) (by simpa using hq) e
  | tickSav => exact guarded e fun _ e => .of_eq (sav_control (s := s.latchH) e)
  | tickBeat => exact guarded e fun _ e => .of_eq (beat_control (s := s.latchH) e)
  | tickEav => exact guarded e fun hrun e => .of_eavAt (u := s.latchH) (.inr rfl) hrun rfl e
  | tickAdvance => exact guarded e fun _ e => by cases e; exact .of_eq (advance_control _ _)
  | druDispatch =>
    refine guarded e fun hb e => ?_
    cases e
    exact dispatch_writes ((dispatchEnabled_iff s).1 hb).1
  | druCopy => exact guarded e fun hb e => copyStep_writes ((copyEnabled_iff s).1 hb).1 e
  | druTail => exact guarded e fun hb e => tailStep_writes ((tailEnabled_iff s).1 hb).1 e
  | druTerm =>
    refine guarded e fun hb e => ?_
    cases e
    exact termStep_writes ((termEnabled_iff s).1 hb).1
  | druHookReq =>
    refine guarded e fun hb e => ?_
    cases e
    exact hookReqStep_control ((hookReqEnabled_iff s).1 hb) ▸ .hookReq
  | druSched => exact guarded e fun hb e => schedStep_writes ((schedEnabled_iff s).1 hb) e
  | rastWb8 => exact guarded e fun _ e => by obtain ⟨-, rfl⟩ := wb8Step_eq_ok e; exact .keeps _
  | rastWb32 => exact guarded e fun _ e => by obtain ⟨-, rfl⟩ := wb32Step_eq_ok e; exact .keeps _
  | rastResp d => exact guarded e fun _ e => by obtain ⟨-, rfl⟩ := respStep_eq_ok e; exact .respond d
  | hookAck => exact guarded e fun hb e => by cases e; exact hookAckStep_control s ▸ .hookAck hb
  | wrCtrl v => exact unlessBusy_induction (P := fun t => Writes s _ t.control) e (.keeps _) fun _ => .keeps _
  | wrCmd v =>
    refine unlessBusy_induction (P := fun t => Writes s _ t.control) e (.keeps _) fun _ => ?_
    split <;> exact .keeps _
  | wrBandHead v => cases e; exact .bandHead v
  | wrTLinePixels v | wrTSyncPixels v | wrTBackPorchPixels v | wrTVideoLead v | wrTVideoPixels v | wrTPolarity v
  | wrTVsyncStartLine v | wrTVsyncEndLine v | wrTVideoStartLine v | wrTVideoEndLine v | wrTClockConfig v =>
    exact .of_timing v (by simp [timingWrites]) e
  | _ => cases e; exact .keeps _

end Sys2Proof.Machine
end

section
/-! SUPPORT. The statements of spec/10_state.md about the control part, each from what an operation writes of it: the pins that
are not sampled, the active timing, the display state and the band handoff. -/

namespace Sys2Proof.Machine

/-- An operation but RESET that answers a state: a fault keeps the control part, as every other write of no control does. -/
theorem exec_writes {i : Instr} {s t : State} (hne : i ≠ .reset) (e : exec i s = .next t) : Writes s i t.control := by
  rcases exec_eq_next e with ⟨hi, -⟩ | ⟨-, -, e | ⟨c, -, rfl⟩⟩
  · exact absurd hi hne
  · exact effect_writes hne e
  · exact .keeps i

/-! ### The timings and the clock token -/

theorem Writes.load_cases {i : Instr} {s : State} {c : Control} (h : Writes s i c) :
    (c.t = s.t ∧ c.clkCfgO = s.clkCfgO)
      ∨ ((i = .tick ∨ i = .tickCfgLoad) ∧ s.cfgPhase = .quiesce ∧ loadReady s = true ∧ s.sh.wf = true
          ∧ c = (loadTiming s).control) := by
  cases h with
  | load _ hi hq hr hw => exact .inr ⟨hi, hq, hr, hw, rfl⟩
  | _ => exact .inl ⟨rfl, rfl⟩

theorem Writes.sh_cases {i : Instr} {s : State} {c : Control} (h : Writes s i c) :
    c.sh = s.sh ∨ (s.cfgPhase = .idle ∧ c.t = s.t ∧ ∃ v, i ∈ timingWrites v) := by
  cases h with
  | timing x hp hi => exact .inr ⟨hp, rfl, _, hi⟩
  | _ => exact .inl rfl

/-- Settles O56: of the operations' writes only CFG_LOAD's hold another `T`, and only a timing write's another `SH`. -/
theorem activeTimingChangesOnlyAtLoad : Obligations.ActiveTimingChangesOnlyAtLoad := by
  unfold Obligations.ActiveTimingChangesOnlyAtLoad
  intro i s t e hne
  have w := exec_writes hne e
  refine ⟨fun ht => ?_, fun hsh => ?_⟩
  · rcases w.load_cases with ⟨same, -⟩ | ⟨hi, hq, hr, hw, hc⟩
    · exact absurd same ht
    · obtain ⟨hdefer, hphase⟩ := (loadReady_iff s).1 hr
      exact ⟨hi, hq, hdefer, hphase, congrArg Control.t hc, hw, congrArg Control.currentLine hc,
        congrArg Control.display hc⟩
  · exact w.sh_cases.resolve_left hsh

/-! ### The requests -/

theorem Writes.hookReq_cases {i : Instr} {s : State} {c : Control} (h : Writes s i c) :
    c.hookReq = s.hookReq ∨ (i = .druHookReq ∧ c.hookReq = true) ∨ (i = .hookAck ∧ c.hookReq = false) := by
  cases h with
  | hookReq => exact .inr (.inl ⟨rfl, rfl⟩)
  | hookAck => exact .inr (.inr ⟨rfl, rfl⟩)
  | _ => exact .inl rfl

theorem Writes.rastReq_cases {i : Instr} {s : State} {c : Control} (h : Writes s i c) :
    c.rastReq = rastReqPin s ∨ (i = .hookAck ∧ s.hookReq = true ∧ c.rastReq = none)
      ∨ (i = .druSched ∧ c.rastReq = some (s.currentBand.rast, vindex s.t s.dru.lineSnap))
      ∨ ∃ d, i = .rastResp d ∧ c.rastReq = none := by
  cases h with
  | hookAck hr => exact .inr (.inl ⟨rfl, hr, rfl⟩)
  | request => exact .inr (.inr (.inl ⟨rfl, rfl⟩))
  | respond d => exact .inr (.inr (.inr ⟨d, rfl, rfl⟩))
  | _ => exact .inl rfl

/-- Settles O45: the pins are functions of the control part. In an invariant state no request is out while the hook is, so
HOOK.ACK takes none away. -/
theorem unsampledPins : Obligations.UnsampledPins := by
  unfold Obligations.UnsampledPins
  refine ⟨fun s => ⟨rfl, rfl, rfl, by simp [rastReqPin, wbGrant]⟩, fun i s t inv e hne => ?_⟩
  have w := exec_writes hne e
  refine ⟨fun hclk => ?_, fun hhook => w.hookReq_cases.resolve_left hhook, fun hrast => ?_⟩
  · rcases w.load_cases with ⟨-, same⟩ | ⟨hi, hq, -, -, hc⟩
    · exact absurd same hclk
    · exact ⟨hi, hq, congrArg Control.clkCfgO hc⟩
  · rw [wbGntPin_eq_isSome]
    rcases w.rastReq_cases with same | ⟨-, hr, none_after⟩ | ⟨hi, hreq⟩ | ⟨d, hi, none_after⟩
    · exact absurd same hrast
    · have none_before : rastReqPin s = none := rastReqPin_eq_none (by simp [inv.hook.1 hr])
      exact absurd (none_after.trans none_before.symm) hrast
    · replace hreq : rastReqPin t = _ := hreq
      exact .inl ⟨hi, hreq, by rw [hreq]; rfl⟩
    · replace none_after : rastReqPin t = none := none_after
      exact .inr ⟨d, hi, none_after, by rw [none_after]; rfl⟩

/-! ### The display state -/

/-- The next state of the cycle of R159. -/
def DisplayState.Follows (d d' : DisplayState) : Prop :=
  (d = .blank ∧ d' = .starting) ∨ (d = .starting ∧ d' = .active) ∨ (d = .active ∧ d' = .finishing)
    ∨ (d = .finishing ∧ d' = .blank)

/-- On the line where the display state stands (R48.5), the arm of EAV keeps it or moves it on (R159). -/
theorem EavArm.follows {c : Control} {d : DisplayState} {b : Band} {k : Bool} (h : EavArm c d b k) (hw : c.t.wf = true)
    (hd : displayAt c.t c.currentLine c.display) : d = c.display ∨ c.display.Follows d := by
  obtain ⟨-, -, -, -, -, -, -, -, hlines⟩ := (wf_iff c.t).1 hw
  unfold DisplayState.Follows
  cases h with
  | blank h0 =>
    rw [h0, displayAt_zero] at hd
    rcases hd with hd | hd <;> simp [hd]
  | starting n h0 hl =>
    rw [displayAt_before h0 (by omega)] at hd
    simp [hd]
  | active h0 hl =>
    rw [displayAt_first h0 hl] at hd
    simp [hd]
  | finishing h0 hs hl =>
    rw [displayAt_after (by omega)] at hd
    simp [hd]
  | keeps => exact .inl rfl

theorem Writes.display_cases {i : Instr} {s : State} {c : Control} (h : Writes s i c) :
    c.display = s.display
      ∨ ((i = .tick ∨ i = .tickCfgLoad) ∧ s.cfgPhase = .quiesce ∧ c.display = .blank)
      ∨ ((i = .tick ∨ i = .tickEav) ∧ s.run = true ∧ s.hcount.toNat = s.t.hend ∧ c.t = s.t
          ∧ ∃ b k, EavArm s.control c.display b k) := by
  cases h with
  | load _ hi hq => exact .inr (.inl ⟨hi, hq, rfl⟩)
  | eav _ hi hrun hend arm => exact .inr (.inr ⟨hi, hrun, hend, rfl, _, _, arm⟩)
  | _ => exact .inl rfl

/-- Settles O57: RESET and CFG_LOAD enter `blank`, and an EAV follows the cycle on the line that the invariant gives. -/
theorem displayCycle : Obligations.DisplayCycle := by
  unfold Obligations.DisplayCycle
  intro i s t inv e hd
  by_cases hne : i = .reset
  · subst hne
    cases e
    exact .inl ⟨.inl rfl, rfl⟩
  · rcases (exec_writes hne e).display_cases with same | ⟨hi, hq, hblank⟩ | ⟨hi, hrun, hend, ht, b, k, arm⟩
    · exact absurd same hd
    · exact .inl ⟨.inr ⟨hi, hq⟩, hblank⟩
    · have follows := arm.follows (inv.timing hrun).1 (inv.displayed hrun)
      replace ht : t.t = s.t := ht
      exact .inr ⟨hi, hrun, ht ▸ hend, follows.resolve_left hd⟩

/-! ### The band handoff -/

/-- The handoff flag is set by the STARTING arm alone and cleared by a BAND_HEAD write alone (R73, R75, R154). -/
theorem Writes.bandTaken_cases {i : Instr} {s : State} {c : Control} (h : Writes s i c) :
    c.bandTaken = s.bandTaken
      ∨ (c.bandTaken = true ∧ (i = .tick ∨ i = .tickEav) ∧ s.run = true ∧ s.hcount.toNat = s.t.hend ∧ c.t = s.t
          ∧ s.currentLine.toNat + 1 = s.t.videoStartLine.toNat ∧ c.bandHead = s.bandHead ∧ c.display = .starting
          ∧ HeadNode s.hostMem s.bandHead c.currentBand)
      ∨ (c.bandTaken = false ∧ i = .wrBandHead c.bandHead) := by
  cases h with
  | eav _ hi hrun hend arm =>
    cases arm with
    | starting n h0 hl hn => exact .inr (.inl ⟨rfl, hi, hrun, hend, rfl, hl, rfl, rfl, hn⟩)
    | _ => exact .inl rfl
  | bandHead v => exact .inr (.inr ⟨rfl, rfl⟩)
  | _ => exact .inl rfl

/-- Settles O58: only the STARTING arm sets the flag, only a BAND_HEAD write and RESET clear it. -/
theorem bandHandoff : Obligations.BandHandoff := by
  unfold Obligations.BandHandoff
  intro i s t e
  by_cases hne : i = .reset
  · subst hne
    cases e
    exact ⟨fun _ ht => (Bool.false_ne_true ht).elim, fun _ _ => .inl ⟨rfl, rfl⟩⟩
  · have w := exec_writes hne e
    refine ⟨fun hs ht => ?_, fun hs ht => ?_⟩
    · rcases w.bandTaken_cases with same | ⟨-, hi, hrun, hend, htiming, hl, hhead, hd, hn⟩ | ⟨clear, -⟩
      · exact absurd (hs.symm.trans (same.symm.trans ht)) Bool.false_ne_true
      · replace htiming : t.t = s.t := htiming
        exact ⟨hi, hrun, htiming ▸ hend, htiming ▸ hl, hhead, hd, hn⟩
      · exact absurd (clear.symm.trans ht) Bool.false_ne_true
    · rcases w.bandTaken_cases with same | ⟨set, -⟩ | ⟨-, hi⟩
      · exact absurd (ht.symm.trans (same.trans hs)) Bool.false_ne_true
      · exact absurd (ht.symm.trans set) Bool.false_ne_true
      · exact .inr ⟨_, hi, rfl⟩

end Sys2Proof.Machine
end

section
/-! SUPPORT. The machine's invariant (spec/10_state.md R48): what each part of a TICK, each step of the deferred render unit,
each port action and each register access keeps of it, and from these that every step keeps it. -/

namespace Sys2Proof.Machine

theorem bufBytes_pos (p : Params) : 0 < p.bufBytes := by unfold Params.bufBytes; omega

theorem bufBytes_le (p : Params) : p.bufBytes ≤ 65536 := by
  have := p.bufWordsLess1.isLt
  unfold Params.bufBytes
  omega

theorem toNat_add_one {w : Nat} {x : BitVec w} (h : x.toNat + 1 < 2 ^ w) : (x + 1).toNat = x.toNat + 1 := by
  have one : (1 : BitVec w).toNat = 1 := Nat.mod_eq_of_lt (show 1 < 2 ^ w by omega)
  rw [BitVec.toNat_add, one, Nat.mod_eq_of_lt h]

/-- After the last line of the frame the line number is 0 again; before it, it goes up by one (R157). -/
theorem nextLine_cases {x : Timing} {l : Half} (hl : l.toNat < x.videoEndLine.toNat) :
    (l.toNat + 1 = x.videoEndLine.toNat ∧ nextLine x l = 0)
      ∨ (l.toNat + 1 < x.videoEndLine.toNat ∧ (nextLine x l).toNat = l.toNat + 1) := by
  have := x.videoEndLine.isLt
  unfold nextLine
  split
  · exact .inl ⟨‹_›, rfl⟩
  · exact .inr ⟨by omega, toNat_add_one (by omega)⟩

theorem nextLine_lt {x : Timing} {l : Half} (hl : l.toNat < x.videoEndLine.toNat) :
    (nextLine x l).toNat < x.videoEndLine.toNat := by
  rcases nextLine_cases hl with ⟨-, hn⟩ | ⟨hlt, hn⟩
  · rw [hn]
    exact Nat.zero_lt_of_lt hl
  · rwa [hn]

/-- The arm of EAV leaves the display state of the line that comes next (R48.5, R159). -/
theorem EavArm.displayAt_nextLine {c : Control} {d : DisplayState} {b : Band} {k : Bool} (h : EavArm c d b k)
    (hw : c.t.wf = true) (hl : c.currentLine.toNat < c.t.videoEndLine.toNat)
    (hd : displayAt c.t c.currentLine c.display) : displayAt c.t (nextLine c.t c.currentLine) d := by
  obtain ⟨-, -, -, -, -, -, hsync, hporch, hlines⟩ := (wf_iff c.t).1 hw
  rcases nextLine_cases hl with ⟨hlast, hn⟩ | ⟨hlt, hn⟩
  · rw [hn, displayAt_zero]
    cases h with
    | blank => exact .inl rfl
    | finishing => exact .inr rfl
    | starting n h0 hs => omega
    | active h0 hs => rw [hs] at hlast; omega
    | keeps h0 hs =>
      rcases hs with hs | hs | ⟨-, -, hs⟩
      · rw [hs] at hlast; omega
      · rw [hs] at hlast; omega
      · exact absurd hlast hs
  · have hn0 : nextLine c.t c.currentLine ≠ 0 := fun h => by simp [h] at hn
    cases h with
    | blank h0 => rw [displayAt_before hn0 (by rw [hn, h0]; simp; omega)]
    | starting n h0 hs => rw [displayAt_first hn0 (BitVec.eq_of_toNat_eq (hn.trans hs))]
    | active h0 hs => rw [displayAt_after (by rw [hn, hs]; omega)]
    | finishing h0 hs he => omega
    | keeps h0 hs =>
      rcases Nat.lt_or_ge c.currentLine.toNat c.t.videoStartLine.toNat with hb | hb
      · rw [displayAt_before h0 hb] at hd
        rw [displayAt_before hn0 ?_, hd]
        rcases hs with hs | hs | ⟨hs, -, -⟩
        · rw [hn, hs]; omega
        · rw [hn, hs]; omega
        · omega
      · have ha : c.t.videoStartLine.toNat < c.currentLine.toNat := by
          rcases hs with hs | hs | ⟨-, hs, -⟩
          · rw [hs] at hb; omega
          · rw [hs] at hb; omega
          · exact lt_of_le_of_ne hb fun he => hs (BitVec.eq_of_toNat_eq he.symm)
        rw [displayAt_after ha] at hd
        rw [displayAt_after (by omega), hd]

namespace State.Inv

/-! ### Writes that the invariant does not see -/

theorem raise {s : State} (h : s.Inv) (c : Fault) : (s.raise c).Inv := { h with }

theorem returnRead {s : State} (h : s.Inv) (v : Word) : (s.returnRead v).Inv := { h with }

theorem beginTick {s : State} (h : s.Inv) : s.beginTick.Inv := { h with }

theorem sample {s : State} (h : s.Inv) : (sample s).Inv := { h with }

theorem hostSide {rest : List Input} {s u : State} (h : s.Inv) (hu : State.HostSide rest s u) : u.Inv := by
  obtain ⟨_, _, _, _, _, rfl, hm⟩ := hu
  exact { h with hostMemory := hm h.hostMemory }

theorem afterReset {s : State} (h : s.Inv) : s.afterReset.Inv where
  hostMemory := h.hostMemory
  workingBuffer := ⟨.nil, by simp [State.afterReset, State.reset]⟩
  scanBuffer := ⟨.nil, by simp [State.afterReset, State.reset]⟩
  timing := nofun
  streaming := nofun
  quiesced := nofun
  displayed := nofun
  shape := bufBytes_pos _
  copyLength := bufBytes_pos _
  transferCount := Nat.zero_le _
  beatIndex := nofun
  hook := ⟨nofun, nofun⟩
  scheduling := nofun

/-! ### The configuration sequencer -/

theorem drainHalt {s : State} (h : s.Inv) (hd : drainReady s = true) : (drainHalt s).Inv :=
  have idle : s.dma.busy = false := ((drainReady_iff s).1 hd).2
  { h with
    timing := nofun
    streaming := fun hb => absurd (idle.symm.trans hb) Bool.false_ne_true
    quiesced := fun _ => ⟨rfl, idle, rfl⟩
    displayed := nofun }

theorem cfgLoad {s t : State} (h : s.Inv) (hq : s.cfgPhase = .quiesce) (e : cfgLoad s = .ok t) : t.Inv := by
  rcases cfgLoad_eq_ok e with ⟨-, rfl⟩ | ⟨hr, hw, rfl⟩
  · exact h
  · obtain ⟨-, hphase⟩ := (loadReady_iff s).1 hr
    obtain ⟨-, -, hcount⟩ := h.quiesced hq
    obtain ⟨-, -, -, -, hline, -, -, -, hlines⟩ := (wf_iff s.sh).1 hw
    exact { h with
      workingBuffer := Buffer.wf_fillSentinel h.workingBuffer
      scanBuffer := Buffer.wf_blankTrailing h.scanBuffer _
      timing := fun _ => ⟨hw, show s.hcount.toNat < s.sh.linePixels.toNat by simp [hcount]; omega,
        show 0 < s.sh.videoEndLine.toNat by omega⟩
      streaming := fun _ => rfl
      quiesced := nofun
      displayed := fun _ => .inl rfl
      shape := bufBytes_pos _
      transferCount := Nat.zero_le _
      scheduling := fun hs => absurd (hphase.symm.trans hs) (by decide) }

end State.Inv

/-! ### The running generator -/

/-- A stream that is still busy after a beat has not sent its last byte (R172). -/
theorem State.Inv.beatStream_index {s : State} (h : s.Inv) (hb : s.dma.busy = true)
    (hb' : (beatStream s.dma).busy = true) :
    (beatStream s.dma).idx.toNat < (beatStream s.dma).cnt.toNat
      ∧ (beatStream s.dma).cnt.toNat ≤ s.params.bufBytes := by
  obtain ⟨hi, hc⟩ := h.beatIndex hb
  have hmax := bufBytes_le s.params
  have not_last : s.dma.idx.toNat + 1 ≠ s.dma.cnt.toNat := fun hl => by simp [beatStream, hl] at hb'
  refine ⟨?_, hc⟩
  show (s.dma.idx + 1).toNat < s.dma.cnt.toNat
  rw [toNat_add_one (by omega)]
  omega

/-- The generator runs at position `x` in a state of the invariant: what SAV, BEAT and EAV keep and ADVANCE needs. -/
structure State.RunsAt (s : State) (x : Half) : Prop where
  inv : s.Inv
  run : s.run = true
  hcount : s.hcount = x

namespace State.RunsAt

theorem not_quiesce {s : State} {x : Half} (h : s.RunsAt x) : s.cfgPhase ≠ .quiesce := fun hq =>
  absurd ((h.inv.quiesced hq).1.symm.trans h.run) Bool.false_ne_true

theorem latchH {s : State} {x : Half} (h : s.RunsAt x) : s.latchH.RunsAt x := ⟨{ h.inv with }, h.run, h.hcount⟩

theorem sav {s t : State} {x y : Half} (h : s.RunsAt x) (e : sav y s = .ok t) : t.RunsAt x := by
  rcases sav_eq_ok e with rfl | ⟨-, -, hcount, -, -, rfl⟩
  · exact h
  · have nonzero : 0 < s.dmaCount.toNat := Nat.pos_of_ne_zero fun h0 => hcount (BitVec.eq_of_toNat_eq h0)
    exact ⟨{ h.inv with
      streaming := fun _ => h.run
      quiesced := fun hq => absurd hq h.not_quiesce
      beatIndex := fun _ => ⟨nonzero, h.inv.transferCount⟩ }, h.run, h.hcount⟩

theorem beat {s t : State} {x : Half} (h : s.RunsAt x) (e : beat s = .ok t) : t.RunsAt x := by
  rcases beat_eq_ok e with ⟨-, rfl⟩ | ⟨hb, -, rfl⟩ | ⟨hb, -, b, -, rfl⟩
  · exact h
  · exact ⟨{ h.inv with }, h.run, h.hcount⟩
  · exact ⟨{ h.inv with
      streaming := fun _ => h.run
      quiesced := fun hq => absurd hq h.not_quiesce
      beatIndex := fun hb' => h.inv.beatStream_index hb hb' }, h.run, h.hcount⟩

theorem eavAt {s t : State} {x y : Half} (h : s.RunsAt x) (e : eavAt y s = .ok t) : t.RunsAt x := by
  rcases eavAt_eq_ok e with ⟨-, e⟩ | ⟨-, rfl⟩
  · obtain ⟨d, b, k, v, arm, rfl⟩ := eav_arm e
    obtain ⟨hw, hh, hl⟩ := h.inv.timing h.run
    exact ⟨{ h.inv with
      timing := fun _ => ⟨hw, hh, nextLine_lt hl⟩
      displayed := fun _ => arm.displayAt_nextLine hw hl (h.inv.displayed h.run) }, h.run, h.hcount⟩
  · exact h

theorem advance {s : State} {x : Half} (h : s.RunsAt x) : (advance x s).Inv := by
  obtain ⟨hw, hh, hl⟩ := h.inv.timing h.run
  rw [h.hcount] at hh
  have := s.t.linePixels.isLt
  unfold Machine.advance
  split
  · exact { h.inv with
      timing := fun _ => ⟨hw, show 0 < s.t.linePixels.toNat by omega, hl⟩
      quiesced := fun hq => absurd hq h.not_quiesce }
  · exact { h.inv with
      timing := fun _ => ⟨hw, show (x + 1).toNat < s.t.linePixels.toNat by
        rw [toNat_add_one (by omega)]; omega, hl⟩
      quiesced := fun hq => absurd hq h.not_quiesce }

theorem generate {s t : State} (h : s.RunsAt s.hcount) (e : generate s = .ok t) : t.Inv := by
  obtain ⟨s1, s2, s3, e1, e2, e3, rfl⟩ := generate_eq_ok e
  exact (((h.latchH.sav e1).beat e2).eavAt e3).advance

end State.RunsAt

namespace State.Inv

theorem runsAt {s : State} (h : s.Inv) (hrun : s.run = true) : s.RunsAt s.hcount := ⟨h, hrun, rfl⟩

theorem tickEvents {s t : State} (h : s.Inv) (e : tickEvents s = .ok t) : t.Inv := by
  rcases tickEvents_eq_ok e with ⟨hd, rfl⟩ | ⟨hq, e⟩ | ⟨-, -, hrun, e⟩ | ⟨-, -, -, rfl⟩
  · exact h.drainHalt hd
  · exact h.cfgLoad hq e
  · exact (h.runsAt hrun).generate e
  · exact h

/-! ### The deferred render unit -/

/-- The hook request is down outside HOOK_WAIT (R199, R200). -/
theorem hookReq_eq_false {s : State} (h : s.Inv) (hp : s.dru.phase ≠ .hookWait) : s.hookReq = false :=
  Bool.eq_false_iff.2 fun hr => hp (h.hook.1 hr)

/-- The DRU moves between phases without a hook request, into no SCHED. -/
theorem toPhase {s : State} (h : s.Inv) {p : DruPhase} (hs : s.dru.phase ≠ .hookWait) (hp : p ≠ .hookWait)
    (hsched : p ≠ .sched) : (s.toPhase p).Inv :=
  { h with
    hook := ⟨fun hr => absurd (h.hook.1 hr) hs, fun hw => absurd hw hp⟩
    scheduling := fun hp => absurd hp hsched }

theorem dispatch {s : State} (h : s.Inv) (hp : s.dru.phase = .idle) : (dispatch s).Inv := by
  have entered : (Machine.dispatch s).dru.phase ≠ .hookWait ∧ (Machine.dispatch s).dru.phase ≠ .sched := by
    unfold Machine.dispatch
    dsimp only
    split <;> simp
  exact { h with
    copyLength := h.shape
    hook := ⟨fun hr => absurd (h.hook.1 hr) (by simp [hp]), fun hw => absurd hw entered.1⟩
    scheduling := fun hs => absurd hs entered.2 }

theorem copyStep {s t : State} (h : s.Inv) (hp : s.dru.phase = .copy) (e : copyStep s = .ok t) : t.Inv := by
  rcases copyStep_eq_ok e with ⟨hi, w, -, rfl⟩ | ⟨-, rfl⟩
  · have room : 4 * s.dru.copyIdx.toNat + 3 < s.params.bufBytes := by
      have := h.copyLength
      unfold copyWords at hi
      omega
    exact { h with scanBuffer := Buffer.wf_writeWord h.scanBuffer room w }
  · exact h.toPhase (by simp [hp]) (by decide) (by decide)

theorem tailStep {s t : State} (h : s.Inv) (hp : s.dru.phase = .tail) (e : tailStep s = .ok t) : t.Inv := by
  obtain ⟨sb, hsb, rfl⟩ := tailStep_eq_ok e
  have room : 4 * copyWords s.dru + (s.dru.copyLen.toNat - 4 * copyWords s.dru) ≤ s.params.bufBytes := by
    have := h.copyLength
    unfold copyWords
    omega
  exact { h.toPhase (p := .term) (by simp [hp]) (by decide) (by decide) with
    scanBuffer := Buffer.wf_copyBytes h.scanBuffer room hsb }

theorem termStep {s : State} (h : s.Inv) (hp : s.dru.phase = .term) : (termStep s).Inv :=
  { h.toPhase (p := .hook) (by simp [hp]) (by decide) (by decide) with
    scanBuffer := Buffer.wf_write h.scanBuffer h.copyLength _
    transferCount := by
      have hlen := h.copyLength
      have hmax := bufBytes_le s.params
      show (BitVec.ofNat 17 (s.dru.copyLen.toNat + 1)).toNat ≤ s.params.bufBytes
      rw [BitVec.toNat_ofNat, Nat.mod_eq_of_lt (by omega)]
      exact hlen }

theorem hookReqStep {s : State} (h : s.Inv) : (hookReqStep s).Inv :=
  { h with hook := ⟨fun _ => rfl, fun _ => rfl⟩, scheduling := nofun }

theorem hookAckStep {s : State} (h : s.Inv) : (hookAckStep s).Inv := by
  unfold Machine.hookAckStep
  split
  · exact { h with hook := ⟨nofun, nofun⟩, scheduling := fun _ => ‹_› }
  · exact { h with hook := ⟨nofun, nofun⟩, scheduling := nofun }

theorem schedStep {s t : State} (h : s.Inv) (hp : s.dru.phase = .sched) (e : schedStep s = .ok t) : t.Inv := by
  rcases schedStep_eq_ok e with ⟨-, -, rfl⟩ | ⟨-, -, n, -, rfl⟩ | ⟨-, -, rfl⟩
  · exact { h.toPhase (p := .renderWait) (by simp [hp]) (by decide) (by decide) with }
  · exact { h with }
  · exact h.toPhase (by simp [hp]) (by decide) (by decide)

/-! ### The rasterizer port -/

theorem wb8Step {s t : State} (h : s.Inv) {i : Half} {b : Byte} (e : wb8Step i b s = .ok t) : t.Inv := by
  obtain ⟨room, rfl⟩ := wb8Step_eq_ok e
  exact { h with workingBuffer := Buffer.wf_write h.workingBuffer room b }

theorem wb32Step {s t : State} (h : s.Inv) {i : BitVec 14} {w : Word} (e : wb32Step i w s = .ok t) : t.Inv := by
  obtain ⟨room, rfl⟩ := wb32Step_eq_ok e
  exact { h with workingBuffer := Buffer.wf_writeWord h.workingBuffer room w }

theorem respStep {s t : State} (h : s.Inv) (hp : s.dru.phase = .renderWait) {d : Word} (e : respStep d s = .ok t) :
    t.Inv := by
  obtain ⟨hlen, rfl⟩ := respStep_eq_ok e
  exact { h.toPhase (p := .idle) (by simp [hp]) (by decide) (by decide) with shape := hlen }

/-! ### Every operation, every step -/

theorem configureStart {s : State} (h : s.Inv) : (configureStart s).Inv := { h with quiesced := nofun }

/-- The writes of an operation keep the invariant. -/
theorem effect {i : Instr} {s t : State} (h : s.Inv) (e : effect i s = .ok t) : t.Inv := by
  have guarded {b : Bool} {body : Except Fault State} (e : whenEnabled b s body = .ok t)
      (taken : b = true → body = .ok t → t.Inv) : t.Inv := whenEnabled_induction (P := State.Inv) e h taken
  have shadow {x : Timing} (e : unlessBusy s { s with sh := x } = .ok t) : t.Inv :=
    unlessBusy_induction (P := State.Inv) e h fun _ => { h with }
  cases i with
  | reset => cases e; exact h.afterReset
  | tick =>
    obtain ⟨u, hu, e⟩ := bind_eq_ok_iff.1 e
    cases e
    exact (h.beginTick.tickEvents hu).sample
  | tickCfgDrain => exact guarded e fun hd e => by cases e; exact h.drainHalt hd
  | tickCfgLoad => exact guarded e fun hq e => h.cfgLoad (by simpa using hq) e
  | tickSav => exact guarded e fun hrun e => ((h.runsAt hrun).latchH.sav e).inv
  | tickBeat => exact guarded e fun hrun e => ((h.runsAt hrun).latchH.beat e).inv
  | tickEav => exact guarded e fun hrun e => ((h.runsAt hrun).latchH.eavAt e).inv
  | tickAdvance => exact guarded e fun hrun e => by cases e; exact (h.runsAt hrun).latchH.advance
  | tickSample => cases e; exact h.sample
  | druDispatch => exact guarded e fun hb e => by cases e; exact h.dispatch ((dispatchEnabled_iff s).1 hb).1
  | druCopy => exact guarded e fun hb e => h.copyStep ((copyEnabled_iff s).1 hb).1 e
  | druTail => exact guarded e fun hb e => h.tailStep ((tailEnabled_iff s).1 hb).1 e
  | druTerm => exact guarded e fun hb e => by cases e; exact h.termStep ((termEnabled_iff s).1 hb).1
  | druHookReq => exact guarded e fun _ e => by cases e; exact h.hookReqStep
  | druSched => exact guarded e fun hb e => h.schedStep ((schedEnabled_iff s).1 hb) e
  | rastWb8 => exact guarded e fun _ e => h.wb8Step e
  | rastWb32 => exact guarded e fun _ e => h.wb32Step e
  | rastResp => exact guarded e fun hb e => h.respStep ((wbGrant_iff s).1 hb) e
  | hookAck => exact guarded e fun _ e => by cases e; exact h.hookAckStep
  | wrCtrl => exact unlessBusy_induction (P := State.Inv) e h fun _ => { h with }
  | wrCmd =>
    refine unlessBusy_induction (P := State.Inv) e h fun _ => ?_
    split
    · exact h.configureStart
    · exact h
  | wrBandHead => cases e; exact { h with }
  | wrTLinePixels | wrTSyncPixels | wrTBackPorchPixels | wrTVideoLead | wrTVideoPixels | wrTPolarity
  | wrTVsyncStartLine | wrTVsyncEndLine | wrTVideoStartLine | wrTVideoEndLine | wrTClockConfig => exact shadow e
  | wrStatus | wrLine | wrReserved => cases e; exact h
  | _ => cases e; exact h.returnRead _

theorem exec {i : Instr} {s t : State} (h : s.Inv) (e : exec i s = .next t) : t.Inv := by
  rcases exec_eq_next e with ⟨-, rfl⟩ | ⟨-, -, e | ⟨c, -, rfl⟩⟩
  · exact h.afterReset
  · exact h.effect e
  · exact h.raise c

end State.Inv

/-- Settles O50: a step is an operation, or REG_ACCESS, or nothing, in a state that differs on the host side only. -/
theorem stepKeepsInvariant : Obligations.StepKeepsInvariant := by
  unfold Obligations.StepKeepsInvariant
  intro s t inv e
  rcases step_cases e with ⟨i, u, v, vars, hu, hv, rfl⟩ | ⟨-, ht⟩ | ⟨-, u, hu, rfl⟩
  · exact { (inv.hostSide hu).exec hv with }
  · exact inv.hostSide ht
  · exact (inv.hostSide hu).raise _

end Sys2Proof.Machine
end

section
/-! SUPPORT. The two line buffers (spec/20_memory.md R61, R62): what each operation writes of them, said once, and
from it the statement of who writes each buffer and when. -/

namespace Sys2Proof.Machine

/-- The scan buffer and the working buffer. -/
def State.buffers (s : State) : Cells × Cells := (s.sb, s.wb)

/-! ### The sub-events of a TICK that write no buffer -/

theorem sav_buffers {x : Half} {s t : State} (e : sav x s = .ok t) : t.buffers = s.buffers := by
  rcases sav_eq_ok e with rfl | ⟨-, -, -, -, -, rfl⟩ <;> rfl

theorem beat_buffers {s t : State} (e : beat s = .ok t) : t.buffers = s.buffers := by
  rcases beat_eq_ok e with ⟨-, rfl⟩ | ⟨-, -, rfl⟩ | ⟨-, -, _, -, rfl⟩ <;> rfl

theorem eavAt_buffers {x : Half} {s t : State} (e : eavAt x s = .ok t) : t.buffers = s.buffers := by
  rcases eavAt_eq_ok e with ⟨-, e⟩ | ⟨-, rfl⟩
  · obtain ⟨d, v, b, k, rfl⟩ := eav_frame e
    rfl
  · rfl

theorem advance_buffers (x : Half) (s : State) : (advance x s).buffers = s.buffers := by simp [State.buffers]

theorem generate_buffers {s t : State} (e : generate s = .ok t) : t.buffers = s.buffers := by
  obtain ⟨s1, s2, s3, e1, e2, e3, rfl⟩ := generate_eq_ok e
  calc (advance s.hcount s3).buffers
    _ = s3.buffers := advance_buffers _ _
    _ = s2.buffers := eavAt_buffers e3
    _ = s1.buffers := beat_buffers e2
    _ = s.latchH.buffers := sav_buffers e1

theorem schedStep_buffers {s t : State} (e : schedStep s = .ok t) : t.buffers = s.buffers := by
  rcases schedStep_eq_ok e with ⟨-, -, rfl⟩ | ⟨-, -, _, -, rfl⟩ | ⟨-, -, rfl⟩ <;> rfl

/-! ### What an operation writes of the buffers -/

/-- A flip step in its own phase (R189). -/
def FlipPhase (i : Instr) (p : DruPhase) : Prop :=
  (i = .druCopy ∧ p = .copy) ∨ (i = .druTail ∧ p = .tail) ∨ (i = .druTerm ∧ p = .term)

/-- The buffers, scan buffer first, that an operation other than RESET can leave when it is taken in the state `s`. -/
inductive BufferWrites (s : State) : Instr → Cells × Cells → Prop
  | keeps (i : Instr) : BufferWrites s i s.buffers
  | load (i : Instr) : i = .tick ∨ i = .tickCfgLoad → s.cfgPhase = .quiesce → s.dru.phase = .idle →
      BufferWrites s i (loadTiming s).buffers
  | flip {i : Instr} (sb : Cells) : FlipPhase i s.dru.phase → s.dma.busy = false → BufferWrites s i (sb, s.wb)
  | wb8 (index : Half) (data : Byte) : s.dru.phase = .renderWait →
      BufferWrites s (.rastWb8 index data) (s.sb, s.wb.write index.toNat data)
  | wb32 (windex : BitVec 14) (data : Word) : s.dru.phase = .renderWait →
      BufferWrites s (.rastWb32 windex data) (s.sb, writeWord s.wb windex.toNat data)

theorem BufferWrites.of_eq {s : State} {i : Instr} {b : Cells × Cells} (h : b = s.buffers) : BufferWrites s i b :=
  h ▸ .keeps i

theorem cfgLoad_bufferWrites {i : Instr} {s t : State} (hi : i = .tick ∨ i = .tickCfgLoad) (hq : s.cfgPhase = .quiesce)
    (e : cfgLoad s = .ok t) : BufferWrites s i t.buffers := by
  rcases cfgLoad_eq_ok e with ⟨-, rfl⟩ | ⟨hr, -, rfl⟩
  · exact .keeps i
  · exact .load i hi hq ((loadReady_iff s).1 hr).2

theorem tickEvents_bufferWrites {s t : State} (e : tickEvents s = .ok t) : BufferWrites s .tick t.buffers := by
  rcases tickEvents_eq_ok e with ⟨-, rfl⟩ | ⟨hq, e⟩ | ⟨-, -, -, e⟩ | ⟨-, -, -, rfl⟩
  · exact .keeps _
  · exact cfgLoad_bufferWrites (.inl rfl) hq e
  · exact .of_eq (generate_buffers e)
  · exact .keeps _

/-- Sub-step 1 of a TICK writes none of what a `BufferWrites` speaks of. -/
theorem BufferWrites.of_beginTick {s : State} {b : Cells × Cells} (h : BufferWrites s.beginTick .tick b) :
    BufferWrites s .tick b := by
  cases h with
  | keeps => exact .keeps _
  | load _ hi hq hp => exact .load _ hi hq hp
  | flip _ hf => simp [FlipPhase] at hf

theorem copyStep_bufferWrites {s t : State} (hb : copyEnabled s = true) (e : copyStep s = .ok t) :
    BufferWrites s .druCopy t.buffers := by
  obtain ⟨hp, hbusy⟩ := (copyEnabled_iff s).1 hb
  rcases copyStep_eq_ok e with ⟨-, w, -, rfl⟩ | ⟨-, rfl⟩
  · exact .flip _ (.inl ⟨rfl, hp⟩) hbusy
  · exact .keeps _

theorem tailStep_bufferWrites {s t : State} (hb : tailEnabled s = true) (e : tailStep s = .ok t) :
    BufferWrites s .druTail t.buffers := by
  obtain ⟨hp, hbusy⟩ := (tailEnabled_iff s).1 hb
  obtain ⟨sb, -, rfl⟩ := tailStep_eq_ok e
  exact .flip sb (.inr (.inl ⟨rfl, hp⟩)) hbusy

theorem termStep_bufferWrites {s : State} (hb : termEnabled s = true) :
    BufferWrites s .druTerm (termStep s).buffers := by
  obtain ⟨hp, hbusy⟩ := (termEnabled_iff s).1 hb
  exact .flip _ (.inr (.inr ⟨rfl, hp⟩)) hbusy

/-- What an operation other than RESET writes of the buffers. -/
theorem effect_bufferWrites {i : Instr} {s t : State} (hne : i ≠ .reset) (e : effect i s = .ok t) :
    BufferWrites s i t.buffers := by
  have guarded {b : Bool} {body : Except Fault State} (e : whenEnabled b s body = .ok t)
      (taken : b = true → body = .ok t → BufferWrites s i t.buffers) : BufferWrites s i t.buffers :=
    whenEnabled_induction (P := fun t => BufferWrites s i t.buffers) e (.keeps i) taken
  have masked {u : State} (e : unlessBusy s u = .ok t) (hu : u.buffers = s.buffers) : BufferWrites s i t.buffers :=
    unlessBusy_induction (P := fun t => BufferWrites s i t.buffers) e (.keeps i) fun _ => .of_eq hu
  cases i with
  | reset => exact absurd rfl hne
  | tick =>
    obtain ⟨u, hu, e⟩ := bind_eq_ok_iff.1 e
    cases e
    exact (tickEvents_bufferWrites hu).of_beginTick
  | tickCfgDrain => exact guarded e fun _ e => by cases e; exact .keeps _
  | tickCfgLoad => exact guarded e fun hq e => cfgLoad_bufferWrites (.inr rfl) (by simpa using hq) e
  | tickSav => exact guarded e fun _ e => .of_eq (sav_buffers (s := s.latchH) e)
  | tickBeat => exact guarded e fun _ e => .of_eq (beat_buffers (s := s.latchH) e)
  | tickEav => exact guarded e fun _ e => .of_eq (eavAt_buffers (s := s.latchH) e)
  | tickAdvance => exact guarded e fun _ e => by cases e; exact .of_eq (advance_buffers _ s.latchH)
  | druCopy => exact guarded e copyStep_bufferWrites
  | druTail => exact guarded e tailStep_bufferWrites
  | druTerm => exact guarded e fun hb e => by cases e; exact termStep_bufferWrites hb
  | druSched => exact guarded e fun _ e => .of_eq (schedStep_buffers e)
  | rastWb8 index data =>
    refine guarded e fun hb e => ?_
    obtain ⟨-, rfl⟩ := wb8Step_eq_ok e
    exact .wb8 index data ((wbGrant_iff s).1 hb)
  | rastWb32 windex data =>
    refine guarded e fun hb e => ?_
    obtain ⟨-, rfl⟩ := wb32Step_eq_ok e
    exact .wb32 windex data ((wbGrant_iff s).1 hb)
  | rastResp => exact guarded e fun _ e => by obtain ⟨-, rfl⟩ := respStep_eq_ok e; exact .keeps _
  | druDispatch | druHookReq | hookAck => exact guarded e fun _ e => by cases e; exact .keeps _
  | wrCmd => exact masked e (by split <;> rfl)
  | wrCtrl | wrTLinePixels | wrTSyncPixels | wrTBackPorchPixels | wrTVideoLead | wrTVideoPixels | wrTPolarity
  | wrTVsyncStartLine | wrTVsyncEndLine | wrTVideoStartLine | wrTVideoEndLine | wrTClockConfig => exact masked e rfl
  | _ => cases e; exact .keeps _

/-- An operation but RESET that answers a state: a fault keeps both buffers. -/
theorem exec_bufferWrites {i : Instr} {s t : State} (hne : i ≠ .reset) (e : exec i s = .next t) :
    BufferWrites s i t.buffers := by
  rcases exec_eq_next e with ⟨hi, -⟩ | ⟨-, -, e | ⟨c, -, rfl⟩⟩
  · exact absurd hi hne
  · exact effect_bufferWrites hne e
  · exact .keeps i

/-! ### Who writes each buffer (R61, R62, R176, R213) -/

theorem BufferWrites.sb_cases {i : Instr} {s : State} {b : Cells × Cells} (h : BufferWrites s i b) :
    b.1 = s.sb ∨ (s.dma.busy = false ∧ FlipPhase i s.dru.phase)
      ∨ (s.cfgPhase = .quiesce ∧ s.dru.phase = .idle ∧ (i = .tick ∨ i = .tickCfgLoad)) := by
  cases h with
  | load _ hi hq hp => exact .inr (.inr ⟨hq, hp, hi⟩)
  | flip _ hf hbusy => exact .inr (.inl ⟨hbusy, hf⟩)
  | _ => exact .inl rfl

theorem BufferWrites.wb_cases {i : Instr} {s : State} {b : Cells × Cells} (h : BufferWrites s i b) :
    b.2 = s.wb
      ∨ (s.dru.phase = .renderWait
          ∧ ((∃ index data, i = .rastWb8 index data) ∨ ∃ windex data, i = .rastWb32 windex data))
      ∨ (s.cfgPhase = .quiesce ∧ s.dru.phase = .idle ∧ (i = .tick ∨ i = .tickCfgLoad)) := by
  cases h with
  | load _ hi hq hp => exact .inr (.inr ⟨hq, hp, hi⟩)
  | wb8 index data hp => exact .inr (.inl ⟨hp, .inl ⟨index, data, rfl⟩⟩)
  | wb32 windex data hp => exact .inr (.inl ⟨hp, .inr ⟨windex, data, rfl⟩⟩)
  | _ => exact .inl rfl

/-- Settles O55: of the operations' writes, a flip step's hold another SB, a granted rasterizer write's another WB, and
CFG_LOAD's both. -/
theorem bufferWriters : Obligations.BufferWriters := by
  unfold Obligations.BufferWriters
  intro i s t e hne
  have w := exec_bufferWrites hne e
  exact ⟨w.sb_cases.resolve_left, w.wb_cases.resolve_left⟩

end Sys2Proof.Machine
end

section
/-! SUPPORT. The statements of spec/30_encoding.md about the decoder and the encoder (R120 to R123). First the parts: a
descriptor by its class, the offset of a register access, the data beside a descriptor, and what each code table encodes. -/

namespace Sys2Proof

/-! ### The offset of a register access (R90, R122) -/

theorem opClass_accessOp (cls : BitVec 4) (reg : BitVec 6) : opClass (accessOp cls reg) = cls :=
  (Laws.accessOp_offset cls reg).1

theorem hostReg_accessOp : ∀ (cls : BitVec 4) (reg : BitVec 6), hostReg (accessOp cls reg) = .ok reg := by
  decide

theorem offsetHigh_eq_zero_iff (op : BitVec 16) : op.extractLsb' 8 4 = 0#4 ↔ (opCode op).toNat < 0x100 := by
  simp only [opCode, BitVec.toNat_eq, BitVec.extractLsb'_toNat, BitVec.toNat_ofNat, Nat.shiftRight_eq_div_pow]
  omega

theorem offsetLow_eq_zero_iff (op : BitVec 16) : op.extractLsb' 0 2 = 0#2 ↔ (opCode op).toNat % 4 = 0 := by
  simp only [opCode, BitVec.toNat_eq, BitVec.extractLsb'_toNat, BitVec.toNat_ofNat, Nat.shiftRight_eq_div_pow]
  omega

theorem hostReg_outside {op : BitVec 16} (h : 0x100 ≤ (opCode op).toNat) : hostReg op = .error .outsideBlock := by
  rw [hostReg, if_pos (mt (offsetHigh_eq_zero_iff op).1 (by omega))]

theorem hostReg_misaligned {op : BitVec 16} (hin : (opCode op).toNat < 0x100) (h : (opCode op).toNat % 4 ≠ 0) :
    hostReg op = .error .misalignedOffset := by
  rw [hostReg, if_neg (not_not.2 ((offsetHigh_eq_zero_iff op).2 hin)), if_pos (mt (offsetLow_eq_zero_iff op).1 h)]

/-- A descriptor with a register number has no other bit set beside its class. -/
theorem accessOp_of_hostReg {op : BitVec 16} {reg : BitVec 6} (h : hostReg op = .ok reg) :
    accessOp (opClass op) reg = op := by
  unfold hostReg at h
  split at h
  · cases h
  · split at h
    · cases h
    · rename_i high low
      cases h
      rw [ne_eq, not_not] at high low
      rw [accessOp, opClass, opReg, ← high, ← low,
        BitVec.extractLsb'_append_extractLsb'_eq_extractLsb' (show 12 = 8 + 4 from rfl),
        BitVec.extractLsb'_append_extractLsb'_eq_extractLsb' (show 8 = 2 + 6 from rfl)]
      exact BitVec.extractLsb'_append_extractLsb'

/-! ### Decoding by class (R121) -/

section Classes

variable {op : BitVec 16} (data : BitVec 48)

theorem decode_tick (h : opClass op = 0#4) : decode op data = withoutData (tickOfCode (opCode op)) data := by
  simp [decode, h]

theorem decode_dru (h : opClass op = 1#4) : decode op data = withoutData (druOfCode (opCode op)) data := by
  simp [decode, h]

theorem decode_port (h : opClass op = 2#4) : decode op data = portOfCode (opCode op) data := by
  simp [decode, h]

theorem decode_reset (h : opClass op = 5#4) : decode op data = withoutData (resetOfCode (opCode op)) data := by
  simp [decode, h]

theorem decode_write {reg : BitVec 6} (h : opClass op = 3#4) (hr : hostReg op = .ok reg) :
    decode op data = withWord (wrOf reg) data := by
  simp [decode, h, hr]

theorem decode_read {reg : BitVec 6} (h : opClass op = 4#4) (hr : hostReg op = .ok reg) :
    decode op data = withoutData (some (rdOf reg)) data := by
  simp [decode, h, hr]

theorem decode_access_error {e : DecodeError} (h : opClass op = 3#4 ∨ opClass op = 4#4) (he : hostReg op = .error e) :
    decode op data = .error e := by
  rcases h with h | h <;> simp [decode, h, he]

theorem decode_reservedClass (h : 6 ≤ (opClass op).toNat) : decode op data = .error .reservedClass := by
  unfold decode
  split
  case h_7 => rfl
  all_goals omega

end Classes

/-! ### What each table encodes (R121, R123) -/

/-- The operation is well formed, and these are its words. -/
def Instr.EncodedBy (i : Instr) (op : BitVec 16) (data : BitVec 48) : Prop :=
  i.wellFormed = true ∧ encode i = (op, data)

theorem ofNat_append_opCode {op : BitVec 16} {n : ℕ} (h : (opClass op).toNat = n) :
    BitVec.ofNat 4 n ++ opCode op = op := by
  rw [← (BitVec.toNat_eq_nat.1 h).2]
  exact BitVec.extractLsb'_append_extractLsb'

theorem tickOfCode_encodedBy {code : BitVec 12} {i : Instr} (h : tickOfCode code = some i) :
    i.EncodedBy (0#4 ++ code) 0#48 := by
  unfold tickOfCode at h
  split at h
  case h_9 => cases h
  all_goals
    rename_i hc
    obtain rfl := (BitVec.toNat_eq_nat.1 hc).2
    cases h
    exact ⟨rfl, rfl⟩

theorem druOfCode_encodedBy {code : BitVec 12} {i : Instr} (h : druOfCode code = some i) :
    i.EncodedBy (1#4 ++ code) 0#48 := by
  unfold druOfCode at h
  split at h
  case h_7 => cases h
  all_goals
    rename_i hc
    obtain rfl := (BitVec.toNat_eq_nat.1 hc).2
    cases h
    exact ⟨rfl, rfl⟩

theorem resetOfCode_encodedBy {code : BitVec 12} {i : Instr} (h : resetOfCode code = some i) :
    i.EncodedBy (5#4 ++ code) 0#48 := by
  unfold resetOfCode at h
  split at h
  · rename_i hc
    obtain rfl := (BitVec.toNat_eq_nat.1 hc).2
    cases h
    exact ⟨rfl, rfl⟩
  · cases h

theorem byteWriteData {data : BitVec 48} (h : data.extractLsb' 24 24 = 0#24) :
    0#24 ++ data.extractLsb' 16 8 ++ data.extractLsb' 0 16 = data := by
  rw [← h, BitVec.extractLsb'_append_extractLsb'_eq_extractLsb' (show 24 = 16 + 8 from rfl)]
  exact BitVec.extractLsb'_append_extractLsb'

theorem wordWriteData {data : BitVec 48} (h : data.extractLsb' 14 2 = 0#2) :
    data.extractLsb' 16 32 ++ 0#2 ++ data.extractLsb' 0 14 = data := by
  rw [← h, BitVec.extractLsb'_append_extractLsb'_eq_extractLsb' (show 16 = 14 + 2 from rfl)]
  exact BitVec.extractLsb'_append_extractLsb'

theorem portOfCode_encodedBy {code : BitVec 12} {data : BitVec 48} {i : Instr} (h : portOfCode code data = .ok i) :
    i.EncodedBy (2#4 ++ code) data := by
  unfold portOfCode at h
  split at h
  case h_5 => cases h
  all_goals
    rename_i hc
    obtain rfl := (BitVec.toNat_eq_nat.1 hc).2
  case h_1 =>
    split at h
    · cases h
      exact ⟨rfl, congrArg (Prod.mk _) (byteWriteData ‹_›)⟩
    · cases h
  case h_2 =>
    split at h
    · cases h
      exact ⟨rfl, congrArg (Prod.mk _) (wordWriteData ‹_›)⟩
    · cases h
  case h_3 =>
    obtain ⟨d, rfl, rfl⟩ := withWord_eq_ok h
    exact ⟨rfl, rfl⟩
  case h_4 =>
    obtain ⟨hi, rfl⟩ := withoutData_eq_ok h
    cases hi
    exact ⟨rfl, rfl⟩

/-- Every register number is one of the sixteen registers' or a reserved one's. -/
theorem reservedReg_of_ne {reg : BitVec 6} (low : ∀ n < 15, reg.toNat ≠ n) (cmd : reg.toNat ≠ 16) :
    reservedReg reg = true := by
  have := low reg.toNat
  simp only [reservedReg, Bool.or_eq_true, beq_iff_eq, decide_eq_true_eq]
  omega

theorem wrOf_encodedBy (reg : BitVec 6) (v : Word) : (wrOf reg v).EncodedBy (accessOp 3#4 reg) (0#16 ++ v) := by
  unfold wrOf
  split
  case h_17 =>
    refine ⟨reservedReg_of_ne (fun n hn => ?_) ?_, rfl⟩
    · interval_cases n <;> assumption
    · assumption
  all_goals
    rename_i hr
    obtain rfl := (BitVec.toNat_eq_nat.1 hr).2
    exact ⟨rfl, rfl⟩

theorem rdOf_encodedBy (reg : BitVec 6) : (rdOf reg).EncodedBy (accessOp 4#4 reg) 0#48 := by
  unfold rdOf
  split
  case h_17 =>
    refine ⟨reservedReg_of_ne (fun n hn => ?_) ?_, rfl⟩
    · interval_cases n <;> assumption
    · assumption
  all_goals
    rename_i hr
    obtain rfl := (BitVec.toNat_eq_nat.1 hr).2
    exact ⟨rfl, rfl⟩

/-- What decodes, class by class: the table of the class names the operation, and encodes it by these words. -/
theorem encodedBy_of_decode {op : BitVec 16} {data : BitVec 48} {i : Instr} (h : decode op data = .ok i) :
    i.EncodedBy op data := by
  unfold decode at h
  split at h
  · obtain ⟨ht, rfl⟩ := withoutData_eq_ok h
    exact ofNat_append_opCode ‹_› ▸ tickOfCode_encodedBy ht
  · obtain ⟨ht, rfl⟩ := withoutData_eq_ok h
    exact ofNat_append_opCode ‹_› ▸ druOfCode_encodedBy ht
  · exact ofNat_append_opCode ‹_› ▸ portOfCode_encodedBy h
  · rename_i hc
    split at h
    · cases h
    · rename_i reg hr
      obtain ⟨v, rfl, rfl⟩ := withWord_eq_ok h
      rw [← accessOp_of_hostReg hr, (BitVec.toNat_eq_nat.1 hc).2]
      exact wrOf_encodedBy reg v
  · rename_i hc
    split at h
    · cases h
    · rename_i reg hr
      obtain ⟨hi, rfl⟩ := withoutData_eq_ok h
      cases hi
      rw [← accessOp_of_hostReg hr, (BitVec.toNat_eq_nat.1 hc).2]
      exact rdOf_encodedBy reg
  · obtain ⟨ht, rfl⟩ := withoutData_eq_ok h
    exact ofNat_append_opCode ‹_› ▸ resetOfCode_encodedBy ht
  · cases h

/-- Settles O2, by the tables of the six classes. -/
theorem encodeOfDecode : Obligations.EncodeOfDecode := by
  unfold Obligations.EncodeOfDecode
  exact fun _ _ _ => encodedBy_of_decode

/-! ### Decoding what was encoded (R120, R121) -/

theorem withWord_append (f : Word → Instr) (v : Word) : withWord f (0#16 ++ v) = .ok (f v) := by
  rw [withWord, BitVec.extractLsb'_append_eq_left, BitVec.extractLsb'_append_eq_right, if_pos rfl]

theorem decode_encode_wrOf (reg : BitVec 6) (v : Word) :
    decode (encode (wrOf reg v)).1 (encode (wrOf reg v)).2 = .ok (wrOf reg v) := by
  rw [(wrOf_encodedBy reg v).2, decode_write _ (opClass_accessOp _ _) (hostReg_accessOp _ _), withWord_append]

theorem decode_encode_rdOf (reg : BitVec 6) :
    decode (encode (rdOf reg)).1 (encode (rdOf reg)).2 = .ok (rdOf reg) := by
  rw [(rdOf_encodedBy reg).2, decode_read _ (opClass_accessOp _ _) (hostReg_accessOp _ _), withoutData, if_pos rfl]

theorem portOfCode_rastWb8 (index : Half) (b : Byte) :
    portOfCode 0#12 (0#24 ++ b ++ index) = .ok (.rastWb8 index b) := by
  have unused : (0#24 ++ b ++ index).extractLsb' 24 24 = 0#24 := by
    rw [BitVec.extractLsb'_append_eq_of_le (by decide)]
    exact BitVec.extractLsb'_append_eq_left
  have byte : (0#24 ++ b ++ index).extractLsb' 16 8 = b := by
    rw [BitVec.extractLsb'_append_eq_of_le (by decide)]
    exact BitVec.extractLsb'_append_eq_right
  show (if (0#24 ++ b ++ index).extractLsb' 24 24 = 0#24 then _ else _) = _
  rw [if_pos unused, byte, BitVec.extractLsb'_append_eq_right]

theorem portOfCode_rastWb32 (windex : BitVec 14) (w : Word) :
    portOfCode 1#12 (w ++ 0#2 ++ windex) = .ok (.rastWb32 windex w) := by
  have unused : (w ++ 0#2 ++ windex).extractLsb' 14 2 = 0#2 := by
    rw [BitVec.extractLsb'_append_eq_of_le (by decide)]
    exact BitVec.extractLsb'_append_eq_right
  have word : (w ++ 0#2 ++ windex).extractLsb' 16 32 = w := by
    rw [BitVec.extractLsb'_append_eq_of_le (by decide)]
    exact BitVec.extractLsb'_append_eq_left
  show (if (w ++ 0#2 ++ windex).extractLsb' 14 2 = 0#2 then _ else _) = _
  rw [if_pos unused, word, BitVec.extractLsb'_append_eq_right]

/-- Settles O1, class by class: a register access is one of the register tables, at its register number, and what has no data
is one word. -/
theorem decodeOfEncode : Obligations.DecodeOfEncode := by
  unfold Obligations.DecodeOfEncode
  intro i wf
  cases i with
  | tick | tickCfgDrain | tickCfgLoad | tickSav | tickBeat | tickEav | tickAdvance | tickSample => rfl
  | druDispatch | druCopy | druTail | druTerm | druHookReq | druSched => rfl
  | rastWb8 index b => exact (decode_port (op := 0x2000#16) _ (by decide)).trans (portOfCode_rastWb8 index b)
  | rastWb32 windex w => exact (decode_port (op := 0x2001#16) _ (by decide)).trans (portOfCode_rastWb32 windex w)
  | rastResp d => exact (decode_port (op := 0x2002#16) _ (by decide)).trans (withWord_append .rastResp d)
  | hookAck => rfl
  | wrCtrl v => exact decode_encode_wrOf 0#6 v
  | wrStatus v => exact decode_encode_wrOf 1#6 v
  | wrLine v => exact decode_encode_wrOf 2#6 v
  | wrBandHead v => exact decode_encode_wrOf 3#6 v
  | wrTLinePixels v => exact decode_encode_wrOf 4#6 v
  | wrTSyncPixels v => exact decode_encode_wrOf 5#6 v
  | wrTBackPorchPixels v => exact decode_encode_wrOf 6#6 v
  | wrTVideoLead v => exact decode_encode_wrOf 7#6 v
  | wrTVideoPixels v => exact decode_encode_wrOf 8#6 v
  | wrTPolarity v => exact decode_encode_wrOf 9#6 v
  | wrTVsyncStartLine v => exact decode_encode_wrOf 10#6 v
  | wrTVsyncEndLine v => exact decode_encode_wrOf 11#6 v
  | wrTVideoStartLine v => exact decode_encode_wrOf 12#6 v
  | wrTVideoEndLine v => exact decode_encode_wrOf 13#6 v
  | wrTClockConfig v => exact decode_encode_wrOf 14#6 v
  | wrCmd v => exact decode_encode_wrOf 16#6 v
  | wrReserved reg v => exact wrOf_reserved wf v ▸ decode_encode_wrOf reg v
  | rdCtrl | rdStatus | rdLine | rdBandHead => rfl
  | rdTLinePixels | rdTSyncPixels | rdTBackPorchPixels | rdTVideoLead | rdTVideoPixels | rdTPolarity => rfl
  | rdTVsyncStartLine | rdTVsyncEndLine | rdTVideoStartLine | rdTVideoEndLine | rdTClockConfig | rdCmd => rfl
  | rdReserved reg => exact rdOf_reserved wf ▸ decode_encode_rdOf reg
  | reset => rfl

/-- Settles O3: each word is the encoding of its operation. -/
theorem tableWordsDecode : Obligations.TableWordsDecode := by
  unfold Obligations.TableWordsDecode
  have word := decodeOfEncode
  unfold Obligations.DecodeOfEncode at word
  exact ⟨word .tick rfl, word .tickEav rfl, word .druCopy rfl, word .druSched rfl, word (.rastWb8 7#16 0x5A#8) rfl,
    word (.rastWb32 1#14 0x44332211#32) rfl, word (.rastResp 0x00080000#32) rfl, word (.wrBandHead 0x20000000#32) rfl,
    word (.wrTPolarity 3#32) rfl, word (.wrReserved 15#6 1#32) rfl, word .rdStatus rfl, word (.rdReserved 17#6) rfl,
    word .reset rfl⟩

/-! ### Reserved descriptors (R122) -/

theorem tickOfCode_reserved {code : BitVec 12} (h : 7 < code.toNat) : tickOfCode code = none := by
  unfold tickOfCode
  split
  case h_9 => rfl
  all_goals omega

theorem druOfCode_reserved {code : BitVec 12} (h : 5 < code.toNat) : druOfCode code = none := by
  unfold druOfCode
  split
  case h_7 => rfl
  all_goals omega

theorem portOfCode_reserved {code : BitVec 12} (h : 3 < code.toNat) (data : BitVec 48) :
    portOfCode code data = .error .reservedCode := by
  unfold portOfCode
  split
  case h_5 => rfl
  all_goals omega

theorem resetOfCode_reserved {code : BitVec 12} (h : code ≠ 0#12) : resetOfCode code = none := by
  unfold resetOfCode
  split
  · exact absurd (BitVec.toNat_eq_nat.1 ‹_›).2 h
  · rfl

/-- Settles O4, clause by clause: the class picks the table, and the table has no such code or offset. -/
theorem reservedDescriptorsNameNoOperation : Obligations.ReservedDescriptorsNameNoOperation := by
  unfold Obligations.ReservedDescriptorsNameNoOperation
  intro op data
  refine ⟨decode_reservedClass data, ?_, ?_, ?_, ?_, ?_, ?_⟩
  · rintro ⟨hc, h⟩
    rw [decode_tick data hc, tickOfCode_reserved h, withoutData]
  · rintro ⟨hc, h⟩
    rw [decode_dru data hc, druOfCode_reserved h, withoutData]
  · rintro ⟨hc, h⟩
    rw [decode_port data hc, portOfCode_reserved h]
  · rintro ⟨hc, h⟩
    rw [decode_reset data hc, resetOfCode_reserved h, withoutData]
  · rintro ⟨hc, h⟩
    exact decode_access_error data hc (hostReg_outside h)
  · rintro ⟨hc, hin, h⟩
    exact decode_access_error data hc (hostReg_misaligned hin h)

end Sys2Proof
end

section
/-! SUPPORT. What an entry of the schedule comes to when it is no decoded operation: a descriptor that names none
(spec/30_encoding.md R122), a bus access of the host (spec/45_host_interface.md R230), the enabled step of the deferred render
unit (spec/43_deferred_render.md R189). -/

namespace Sys2Proof.Machine

/-! ### Descriptors that name no operation (R122) -/

theorem opAction_refused {op : BitVec 16} {data : BitVec 48} {e : DecodeError} (h : decode op data = .error e)
    (hne : e ≠ .misalignedOffset) (s : State) : opAction s op data = .done (.refused (.undecodable e)) := by
  cases e <;> simp_all [opAction]

theorem opAction_misaligned {op : BitVec 16} {data : BitVec 48} (h : decode op data = .error .misalignedOffset)
    (s : State) : opAction s op data = .done (agentStep s (.error .regAccess)) := by
  simp only [opAction, h]

/-- Settles O6, by what `opAction` makes of a decode error. -/
theorem undecodableStepsStop : Obligations.UndecodableStepsStop := by
  unfold Obligations.UndecodableStepsStop
  intro s op data rest e hs hd
  refine ⟨fun hne => step_of_fetch_done ((fetch_op hs).trans (opAction_refused hd hne _)), ?_⟩
  rintro rfl hf
  have raised := step_of_fetch_done ((fetch_op hs).trans (opAction_misaligned hd _))
  exact raised.trans (agentStep_error (s := s.popTo rest) hf _)

/-! ### Bus accesses of the host (R90, R122, R230) -/

section BusAccess

variable {s : State} (done : State) (write : Bool) {width : AccessWidth} {addr : Word} (v : Word)

theorem busAccess_outside (h : addr.toNat < s.params.base ∨ s.params.base + 0x100 ≤ addr.toNat) :
    busAccess s done write width addr v = .done (agentStep s (.ok done)) := by
  rw [busAccess, if_pos h]

theorem busAccess_misused {off : ℕ} (ha : addr.toNat = s.params.base + off) (hin : off < 0x100)
    (h : width ≠ 32 ∨ off % 4 ≠ 0) :
    busAccess s done write width addr v = .done (agentStep s (.error .regAccess)) := by
  rw [busAccess, if_neg (by omega), if_pos (by rwa [ha, Nat.add_sub_cancel_left])]

theorem busAccess_register {off : ℕ} (ha : addr.toNat = s.params.base + off) (hin : off < 0x100)
    (h : width = 32 ∧ off % 4 = 0) :
    busAccess s done write width addr v =
      .run (if write then wrOf (BitVec.ofNat 6 (off / 4)) v else rdOf (BitVec.ofNat 6 (off / 4))) done := by
  obtain ⟨hw, hoff⟩ := h
  rw [busAccess, if_neg (by omega), ha, Nat.add_sub_cancel_left, if_neg (by simp [hw, hoff])]

end BusAccess

theorem fetch_bus {s : State} {write : Bool} {width : AccessWidth} {addr v : Word} {rest : List Input}
    {prog : List HostOp} (hs : s.schedule = .host :: rest) (hp : s.hostProg = .bus write width addr v :: prog) :
    fetch s = busAccess (s.popTo rest) { s.popTo rest with hostProg := prog } write width addr v := by
  rw [fetch_host hs]
  simp only [hostStep, popTo_hostProg, hp]

/-- Settles O7, by the three cases of an access: outside the window, misused, a register. -/
theorem busAccessRule : Obligations.BusAccessRule := by
  unfold Obligations.BusAccessRule
  intro s write width addr v rest prog hf hs hp
  have access := fetch_bus hs hp
  have hf' : (s.popTo rest).fault = none := hf
  refine ⟨fun h => ?_, fun off ha hin => ⟨fun h => ?_, fun h => ?_⟩⟩
  · rw [step_of_fetch_done (access.trans (busAccess_outside _ _ _ h)), agentStep_ok hf']
    rfl
  · rw [step_of_fetch_done (access.trans (busAccess_misused _ _ _ ha hin h)), agentStep_error hf']
    rfl
  · exact step_of_fetch_run (access.trans (busAccess_register _ _ _ ha hin h))

/-! ### The step of the deferred render unit (R124, R189) -/

theorem fetch_dru {s : State} {rest : List Input} (h : s.schedule = .dru :: rest) :
    fetch s = druAction (s.popTo rest) := by
  simp only [fetch, h]

theorem druAction_enabled {s : State} {i : Instr} (h : druStepEnabled s = some i) : druAction s = .run i s := by
  simp only [druAction, h]

theorem druAction_none {s : State} (h : druStepEnabled s = none) : druAction s = .done (agentStep s (.ok s)) := by
  simp only [druAction, h]

theorem step_dru {s : State} {rest : List Input} {i : Instr} (hs : s.schedule = .dru :: rest)
    (hi : druStepEnabled s = some i) : step s = exec i (s.popTo rest) :=
  step_of_fetch_run ((fetch_dru hs).trans (druAction_enabled hi))

theorem step_dru_none {s : State} {rest : List Input} (hf : s.fault = none) (hs : s.schedule = .dru :: rest)
    (hi : druStepEnabled s = none) : step s = .next (s.popTo rest) :=
  (step_of_fetch_done ((fetch_dru hs).trans (druAction_none hi))).trans (agentStep_ok hf _)

section Phases

variable {s : State}

theorem druStepEnabled_idle (h : s.dru.phase = .idle) :
    druStepEnabled s = if s.deferPending then some .druDispatch else none := by
  simp [druStepEnabled, dispatchEnabled, h]

theorem druStepEnabled_copy (h : s.dru.phase = .copy) :
    druStepEnabled s = if s.dma.busy then none else some .druCopy := by
  cases hb : s.dma.busy <;> simp [druStepEnabled, copyEnabled, h, hb]

theorem druStepEnabled_tail (h : s.dru.phase = .tail) :
    druStepEnabled s = if s.dma.busy then none else some .druTail := by
  cases hb : s.dma.busy <;> simp [druStepEnabled, tailEnabled, h, hb]

theorem druStepEnabled_term (h : s.dru.phase = .term) :
    druStepEnabled s = if s.dma.busy then none else some .druTerm := by
  cases hb : s.dma.busy <;> simp [druStepEnabled, termEnabled, h, hb]

theorem druStepEnabled_hook (h : s.dru.phase = .hook) : druStepEnabled s = some .druHookReq := by
  simp only [druStepEnabled, h]

theorem druStepEnabled_sched (h : s.dru.phase = .sched) : druStepEnabled s = some .druSched := by
  simp only [druStepEnabled, h]

theorem druStepEnabled_waiting (h : s.dru.phase = .hookWait ∨ s.dru.phase = .renderWait) : druStepEnabled s = none := by
  rcases h with h | h <;> simp only [druStepEnabled, h]

end Phases

/-- Settles O8, by the step that each phase enables. -/
theorem druEntryTakesTheEnabledStep : Obligations.DruEntryTakesTheEnabledStep := by
  unfold Obligations.DruEntryTakesTheEnabledStep
  intro s rest hf hs
  refine ⟨fun ⟨hp, hd⟩ => step_dru hs ?_, fun ⟨hp, hb⟩ => step_dru hs ?_, fun ⟨hp, hb⟩ => step_dru hs ?_,
    fun ⟨hp, hb⟩ => step_dru hs ?_, fun hp => step_dru hs (druStepEnabled_hook hp),
    fun hp => step_dru hs (druStepEnabled_sched hp), fun h => step_dru_none hf hs ?_⟩
  · rw [druStepEnabled_idle hp, if_pos hd]
  · simp [druStepEnabled_copy hp, hb]
  · simp [druStepEnabled_tail hp, hb]
  · simp [druStepEnabled_term hp, hb]
  · rcases h with ⟨hp, hd⟩ | hp | hp | ⟨hb, hp | hp | hp⟩
    · simp [druStepEnabled_idle hp, hd]
    · exact druStepEnabled_waiting (.inl hp)
    · exact druStepEnabled_waiting (.inr hp)
    · rw [druStepEnabled_copy hp, if_pos hb]
    · rw [druStepEnabled_tail hp, if_pos hb]
    · rw [druStepEnabled_term hp, if_pos hb]

end Sys2Proof.Machine
end

section
/-! SUPPORT. The statements of spec/30_encoding.md about single registers: the bits of STATUS (R92) and the writes that are
ignored (R99). -/

namespace Sys2Proof.Machine

/-! ### STATUS (R92) -/

/-- The bits of STATUS from bit 0 up (R92). -/
def statusBits (s : State) : List Bool :=
  [s.display.bits.getLsbD 0, s.display.bits.getLsbD 1, inVblank s, s.bandTaken, s.deferPending, druBusy s, wbGrant s,
    s.dma.busy, s.run, cfgBusy s, s.vsyncLevel]

theorem getLsbD_append_ofBool {n : ℕ} {x : BitVec n} {bits : List Bool} (b : Bool)
    (h : ∀ i, x.getLsbD i = bits.getD i false) (i : ℕ) :
    (x ++ BitVec.ofBool b).getLsbD i = (b :: bits).getD i false := by
  rw [BitVec.getLsbD_append]
  cases i <;> simp [h]

theorem getLsbD_append_two {n : ℕ} {x : BitVec n} {bits : List Bool} (b : BitVec 2)
    (h : ∀ i, x.getLsbD i = bits.getD i false) (i : ℕ) :
    (x ++ b).getLsbD i = (b.getLsbD 0 :: b.getLsbD 1 :: bits).getD i false := by
  rw [BitVec.getLsbD_append]
  match i with
  | 0 => rfl
  | 1 => rfl
  | i + 2 => simp [h]

/-- STATUS is these bits and zeros above them: its fields, put in from bit 10 down. -/
theorem getLsbD_statusWord (s : State) : ∀ i : ℕ, (statusWord s).getLsbD i = (statusBits s).getD i false := by
  refine getLsbD_append_two _ ?_
  iterate 9 refine getLsbD_append_ofBool _ ?_
  intro i
  simp

theorem statusWord_lt (s : State) : (statusWord s).toNat < 2 ^ 11 :=
  Nat.lt_pow_two_of_testBit _ fun i hi => by
    rw [BitVec.testBit_toNat, getLsbD_statusWord, List.getD_eq_default]
    exact hi

theorem statusWord_display (s : State) : (statusWord s).extractLsb' 0 2 = s.display.bits :=
  BitVec.extractLsb'_append_eq_right

/-- Settles O44, field by field: each bit is the entry of `statusBits` at its place. -/
theorem statusFields : Obligations.StatusFields := by
  unfold Obligations.StatusFields
  intro s
  have bit := getLsbD_statusWord s
  refine ⟨?_, ?_, bit 3, bit 4, ?_, ?_, bit 7, bit 8, ?_, bit 10, statusWord_lt s⟩
  · rw [statusWord_display]
    cases s.display <;> rfl
  · rw [bit 2]
    exact decide_eq_true_iff
  · rw [bit 5]
    exact bne_iff_ne
  · rw [bit 6]
    exact wbGrant_iff s
  · rw [bit 9]
    exact bne_iff_ne

/-! ### Ignored writes (R99) -/

/-- Settles O42: the three operations write nothing. -/
theorem ignoredWritesChangeNothing : Obligations.IgnoredWritesChangeNothing := by
  unfold Obligations.IgnoredWritesChangeNothing
  intro s v reg hf
  exact ⟨exec_next hf nofun rfl, exec_next hf nofun rfl, exec_next hf nofun rfl⟩

end Sys2Proof.Machine
end

section
/-! SUPPORT. The parts of a TICK (spec/40_horizontal_timing.md R130 to R138), each said once as an equation: which sub-steps run
in which state, what ADVANCE and SAMPLE write, what CFG_LOAD leaves, and what the running generator writes. -/

namespace Sys2Proof.Machine

/-! ### SAMPLE (R138) -/

/-- HSYNC is at its pulse level inside the sync pulse of a position the generator ran at (R132). -/
theorem level_hsyncActive (s : State) :
    level (hsyncActive s) s.t.hpol
      = if s.htgRan ∧ s.tickH.toNat < s.t.syncPixels.toNat then s.t.hpol else !s.t.hpol := by
  simp [level, hsyncActive]

theorem level_hsyncActive_idle {s : State} (hran : s.htgRan = false) : level (hsyncActive s) s.t.hpol = !s.t.hpol := by
  simp [level_hsyncActive, hran]

/-- Without an event pulse SAMPLE writes the pins alone. -/
theorem sample_of_no_evt {s : State} (hevt : s.evt = false) : sample s = { s with pins := pinsOf s } := by
  simp [sample, hevt]

/-- In a TICK without a generator and without a pulse the pins are the idle ones (R136). -/
theorem sample_idle {s : State} (hran : s.htgRan = false) (hevt : s.evt = false) :
    sample s = { s with pins := s.idlePins } := by
  rw [sample_of_no_evt hevt]
  simp [pinsOf, State.idlePins, level_hsyncActive_idle hran, hevt]

/-! ### ADVANCE (R137) -/

theorem advance_eq (h : Half) (s : State) :
    advance h s = { s with
      hcount := if h.toNat + 1 = s.t.linePixels.toNat then 0 else h + 1
      savCmp := if h.toNat + 1 = s.t.linePixels.toNat then s.savCmpNext else s.savCmp } := by
  unfold advance
  split <;> rfl

/-- The position goes around the line. -/
theorem toNat_advance_hcount {h : Half} {s : State} (hlt : h.toNat < s.t.linePixels.toNat) :
    (advance h s).hcount.toNat = (h.toNat + 1) % s.t.linePixels.toNat := by
  have := s.t.linePixels.isLt
  rw [advance_eq]
  dsimp only
  split
  · rename_i wrap
    rw [wrap, Nat.mod_self]
    rfl
  · rw [toNat_add_one (by omega), Nat.mod_eq_of_lt (by omega)]

/-! ### CFG_LOAD (R238) -/

theorem cfgLoad_waiting {s : State} (h : loadReady s = false) : cfgLoad s = .ok s := by
  rw [cfgLoad, if_pos h]

theorem cfgLoad_illFormed {s : State} (hr : loadReady s = true) (hw : s.sh.wf = false) :
    cfgLoad s = .error .undefTiming := by
  rw [cfgLoad, if_neg (by simp [hr]), if_pos hw]

theorem cfgLoad_loads {s : State} (hr : loadReady s = true) (hw : s.sh.wf = true) : cfgLoad s = .ok (loadTiming s) := by
  rw [cfgLoad, if_neg (by simp [hr]), if_neg (by simp [hw])]

/-- The SAV point of an empty shape, which CFG_LOAD sets: `video_lead` before active video (R133). -/
theorem toNat_loadTiming_savCmp {s : State} (hw : s.sh.wf = true) :
    (loadTiming s).savCmp.toNat + s.sh.videoLead.toNat = s.sh.syncPixels.toNat + s.sh.backPorchPixels.toNat := by
  obtain ⟨-, -, hvideo, -⟩ := (wf_iff s.sh).1 hw
  have before_end : s.sh.hstart + (0 : Half).toNat < s.sh.hend + s.sh.videoLead.toNat := by
    simp [Timing.hend]
    omega
  exact toNat_savPoint s.sh 0 hw before_end

theorem read_fillSentinel (p : Params) (m : Cells) (j : ℕ) :
    (fillSentinel p m).read j = if j < p.bufBytes then some (byteOf p.sentinel (j % 4)) else m.read j := by
  rw [fillSentinel, Cells.read_fill]
  simp

theorem read_blankTrailing (p : Params) (v : Half) (m : Cells) (j : ℕ) :
    (blankTrailing p v m).read j = if v.toNat ≤ j ∧ j < p.bufBytes then some 0#8 else m.read j :=
  Cells.read_fill m _ _ _ j

/-- The pins right after a CFG_LOAD: both syncs out at their idle level, with the event pulse (R238, R138). -/
theorem sample_loadTiming {s : State} (hran : s.htgRan = false) :
    sample (loadTiming s) = { loadTiming s with
      pins := ⟨some (!s.sh.hpol), some (!s.sh.vpol), if s.videoEn then some s.pixLatch else none, true⟩
      hostEvt := true } := by
  have idle : level (hsyncActive (loadTiming s)) s.sh.hpol = !s.sh.hpol :=
    level_hsyncActive_idle (s := loadTiming s) hran
  have pins : pinsOf (loadTiming s)
      = ⟨some (!s.sh.hpol), some (!s.sh.vpol), if s.videoEn then some s.pixLatch else none, true⟩ :=
    congrArg (fun h => (⟨some h, _, _, _⟩ : Pins)) idle
  have seen : ((loadTiming s).hostEvt || (loadTiming s).evt) = true := Bool.or_true _
  rw [sample, pins, seen]

/-! ### The sub-events of a running TICK -/

/-- SAV writes the stream alone (R170). -/
theorem sav_frame {h : Half} {s t : State} (e : sav h s = .ok t) : ∃ d, t = { s with dma := d } := by
  rcases sav_eq_ok e with rfl | ⟨-, -, -, -, -, rfl⟩ <;> exact ⟨_, rfl⟩

/-- BEAT writes the stream and the pixel latch alone (R172). -/
theorem beat_frame {s t : State} (e : beat s = .ok t) : ∃ d p, t = { s with dma := d, pixLatch := p } := by
  rcases beat_eq_ok e with ⟨-, rfl⟩ | ⟨-, -, rfl⟩ | ⟨-, -, _, -, rfl⟩ <;> exact ⟨_, _, rfl⟩

/-- EAV at its position and at no other (R134, R150), by the fields it may write. -/
theorem eavAt_frame {h : Half} {s t : State} (e : eavAt h s = .ok t) :
    ∃ a d v b k, t = { s with
      deferPending := if h.toNat = s.t.hend then true else s.deferPending
      evt := if h.toNat = s.t.hend then true else s.evt
      currentLine := if h.toNat = s.t.hend then nextLine s.t s.currentLine else s.currentLine
      savCmpNext := a, display := d, vsyncLevel := v, currentBand := b, bandTaken := k } := by
  rcases eavAt_eq_ok e with ⟨hend, e⟩ | ⟨hend, rfl⟩
  · obtain ⟨d, v, b, k, rfl⟩ := eav_frame e
    exact ⟨_, d, v, b, k, by simp only [if_pos hend]; rfl⟩
  · exact ⟨_, _, _, _, _, by simp only [if_neg hend]; rfl⟩

theorem sav_elsewhere {h : Half} {s : State} (hne : h ≠ s.savCmp) : sav h s = .ok s := by
  rw [sav, if_pos hne]

theorem beat_no_stream {s : State} (hb : s.dma.busy = false) : beat s = .ok s := by
  rw [beat, if_pos hb]

theorem eavAt_elsewhere {h : Half} {s : State} (hne : h.toNat ≠ s.t.hend) : eavAt h s = .ok s := by
  rw [eavAt, if_neg hne]

/-- What the generator writes: what EAV does at the end of active video and nowhere else, the stream, and the advance. -/
theorem generate_frame {s t : State} (e : generate s = .ok t) :
    ∃ a d v b k m p, t = advance s.hcount { s.latchH with
      deferPending := if s.hcount.toNat = s.t.hend then true else s.deferPending
      evt := if s.hcount.toNat = s.t.hend then true else s.evt
      currentLine := if s.hcount.toNat = s.t.hend then nextLine s.t s.currentLine else s.currentLine
      savCmpNext := a, display := d, vsyncLevel := v, currentBand := b, bandTaken := k, dma := m, pixLatch := p } := by
  obtain ⟨s1, s2, s3, e1, e2, e3, rfl⟩ := generate_eq_ok e
  obtain ⟨m1, rfl⟩ := sav_frame e1
  obtain ⟨m, p, rfl⟩ := beat_frame e2
  obtain ⟨a, d, v, b, k, rfl⟩ := eavAt_frame e3
  exact ⟨a, d, v, b, k, m, p, rfl⟩

/-- The generator away from its events only advances. -/
theorem generate_between_events {s : State} (hb : s.dma.busy = false) (hsav : s.hcount ≠ s.savCmp)
    (heav : s.hcount.toNat ≠ s.t.hend) : generate s = .ok (advance s.hcount s.latchH) := by
  have skip_sav : sav s.hcount s.latchH = .ok s.latchH := sav_elsewhere hsav
  have skip_beat : beat s.latchH = .ok s.latchH := beat_no_stream hb
  have skip_eav : eavAt s.hcount s.latchH = .ok s.latchH := eavAt_elsewhere heav
  rw [generate, skip_sav, ok_bind, skip_beat, ok_bind, skip_eav, ok_bind]

/-! ### Which sub-steps a TICK runs (R130) -/

theorem tickEvents_drain {s : State} (h : drainReady s = true) : tickEvents s = .ok (drainHalt s) := by
  rw [tickEvents, if_pos h]

theorem tickEvents_quiesce {s : State} (hq : s.cfgPhase = .quiesce) : tickEvents s = cfgLoad s := by
  rw [tickEvents, if_neg (by simp [drainReady, hq]), if_pos hq]

theorem tickEvents_running {s : State} (hd : drainReady s = false) (hq : s.cfgPhase ≠ .quiesce) (hrun : s.run = true) :
    tickEvents s = generate s := by
  rw [tickEvents, if_neg (by simp [hd]), if_neg hq, if_pos hrun]

theorem tickEvents_stopped {s : State} (hi : s.cfgPhase = .idle) (hrun : s.run = false) : tickEvents s = .ok s := by
  rw [tickEvents, if_neg (by simp [drainReady, hi]), if_neg (by simp [hi]), if_neg (by simp [hrun])]

theorem effect_tick (s : State) : effect .tick s = (tickEvents s.beginTick).bind fun t => .ok (sample t) := rfl

/-- A TICK whose sub-steps 2 to 4 answer a state samples it. -/
theorem exec_tick_samples {s t : State} (hf : s.fault = none) (e : tickEvents s.beginTick = .ok t) :
    exec .tick s = .next (sample t) :=
  exec_next hf nofun (by rw [effect_tick, e, ok_bind])

/-- A fault of a sub-step is the whole effect of the TICK (R130, R260.1). -/
theorem exec_tick_raises {s : State} {c : Fault} (hf : s.fault = none) (e : tickEvents s.beginTick = .error c) :
    exec .tick s = .next { s with fault := some c } :=
  exec_raise hf nofun (by rw [effect_tick, e, error_bind])

end Sys2Proof.Machine
end

section
/-! SUPPORT. The statements of spec/40_horizontal_timing.md about one TICK: stopped, draining, quiescing and running. -/

namespace Sys2Proof.Machine

/-- Settles O16: no generator runs and no pulse is out, so SAMPLE sees the idle pins. -/
theorem idleAndDrainTicks : Obligations.IdleAndDrainTicks := by
  unfold Obligations.IdleAndDrainTicks
  refine ⟨fun s hf hrun hi => ?_, fun s hf hd hb => ?_⟩
  · rw [exec_tick_samples hf (tickEvents_stopped (s := s.beginTick) hi hrun), sample_idle rfl rfl]
    rfl
  · have ready : drainReady s.beginTick = true := (drainReady_iff _).2 ⟨hd, hb⟩
    rw [exec_tick_samples hf (tickEvents_drain ready), sample_idle rfl rfl]
    rfl

/-- Settles O17: CFG_LOAD waits while it is not ready, and otherwise an ill-formed `SH` is its fault. -/
theorem quiesceTickWaitsOrFaults : Obligations.QuiesceTickWaitsOrFaults := by
  unfold Obligations.QuiesceTickWaitsOrFaults
  intro s hf hq
  have load := tickEvents_quiesce (s := s.beginTick) hq
  refine ⟨fun hwork => ?_, fun hd hp hw => ?_⟩
  · have waiting : loadReady s.beginTick = false := by
      rw [Bool.eq_false_iff, Ne, loadReady_iff]
      rintro ⟨hd, hp⟩
      rcases hwork with h | h
      · exact Bool.false_ne_true (hd.symm.trans h)
      · exact h hp
    rw [exec_tick_samples hf (load.trans (cfgLoad_waiting waiting)), sample_idle rfl rfl]
    rfl
  · have ready : loadReady s.beginTick = true := (loadReady_iff _).2 ⟨hd, hp⟩
    exact exec_tick_raises hf (load.trans (cfgLoad_illFormed ready hw))

/-- Settles O18: the TICK samples what CFG_LOAD leaves. -/
theorem quiesceTickLoads : Obligations.QuiesceTickLoads := by
  unfold Obligations.QuiesceTickLoads
  intro s hf hq hd hp hw
  have ready : loadReady s.beginTick = true := (loadReady_iff _).2 ⟨hd, hp⟩
  have loads : tickEvents s.beginTick = .ok (loadTiming s.beginTick) :=
    (tickEvents_quiesce (s := s.beginTick) hq).trans (cfgLoad_loads ready hw)
  refine ⟨_, _, _, ?_, toNat_loadTiming_savCmp hw, read_fillSentinel _ _, read_blankTrailing _ _ _⟩
  rw [exec_tick_samples hf loads, sample_loadTiming rfl]
  rfl

/-- Settles O19: SAV, BEAT and EAV do nothing here, and SAMPLE sees the state that ADVANCE leaves. -/
theorem runningTickBetweenEvents : Obligations.RunningTickBetweenEvents := by
  unfold Obligations.RunningTickBetweenEvents
  intro s hf hrun hi hb hsav heav
  have no_drain : drainReady s.beginTick = false := by simp [drainReady, hi]
  have advances : tickEvents s.beginTick
      = .ok (advance s.hcount { s with evt := false, htgRan := true, tickH := s.hcount }) :=
    (tickEvents_running no_drain (by simp [hi]) hrun).trans (generate_between_events (s := s.beginTick) hb hsav heav)
  rw [exec_tick_samples hf advances, sample_of_no_evt (by simp)]
  simp [pinsOf, level_hsyncActive, advance_eq]

/-- Settles O29: ADVANCE by its two branches, SAMPLE by the pins it writes. -/
theorem advanceAndSampleRules : Obligations.AdvanceAndSampleRules := by
  unfold Obligations.AdvanceAndSampleRules
  intro s hf
  have enabled (hrun : s.run = true) : effect .tickAdvance s = .ok (advance s.hcount s.latchH) := by
    rw [effect, hrun, whenEnabled_true]
  refine ⟨fun hrun => ?_, fun hrun hlast => ?_, fun hrun hlast => ?_, pinsOf s, exec_next hf nofun rfl,
    ?_, rfl, rfl, rfl⟩
  · exact exec_next hf nofun (by rw [effect, hrun, whenEnabled_false])
  · refine exec_next hf nofun ((enabled hrun).trans ?_)
    simp [advance_eq, hlast]
  · refine exec_next hf nofun ((enabled hrun).trans ?_)
    simp [advance_eq, hlast]
  · rw [← level_hsyncActive]
    rfl

/-- The line after an EAV goes around the frame (R157). -/
theorem toNat_nextLine {x : Timing} {l : Half} (hl : l.toNat < x.videoEndLine.toNat) :
    (nextLine x l).toNat = (l.toNat + 1) % x.videoEndLine.toNat := by
  rcases nextLine_cases hl with ⟨hlast, hn⟩ | ⟨hlt, hn⟩
  · rw [hn, hlast, Nat.mod_self]
    rfl
  · rw [hn, Nat.mod_eq_of_lt hlt]

/-- A TICK that answers an unfaulted state samples what its sub-steps 2 to 4 leave. -/
theorem exec_tick_eq_next {s t : State} (e : exec .tick s = .next t) (hf : t.fault = none) :
    ∃ u, tickEvents s.beginTick = .ok u ∧ t = sample u := by
  rcases exec_eq_next e with ⟨hi, -⟩ | ⟨-, -, e | ⟨c, -, rfl⟩⟩
  · cases hi
  · obtain ⟨u, hu, e⟩ := bind_eq_ok_iff.1 e
    cases e
    exact ⟨u, hu, rfl⟩
  · cases hf

/-- The generator runs in a TICK of a running state of the invariant, but for the drain that halts it (R237). -/
theorem tickEvents_eq_generate {s : State} (inv : s.Inv) (hrun : s.run = true)
    (hd : s.cfgPhase = .drain → s.dma.busy = true) : tickEvents s.beginTick = generate s.beginTick := by
  have no_drain : drainReady s.beginTick = false := by
    rw [Bool.eq_false_iff, Ne, drainReady_iff]
    rintro ⟨hp, hb⟩
    exact Bool.false_ne_true (hb.symm.trans (hd hp))
  exact tickEvents_running no_drain (inv.runsAt hrun).not_quiesce hrun

/-- What a running TICK writes: the advance, EAV at the end of active video and nowhere else, and the pins. -/
theorem running_tick_frame {s t : State} (inv : s.Inv) (hrun : s.run = true)
    (hd : s.cfgPhase = .drain → s.dma.busy = true) (e : exec .tick s = .next t) (hf : t.fault = none) :
    ∃ a d v b k m p, t = sample (advance s.hcount { s with
      htgRan := true, tickH := s.hcount
      deferPending := if s.hcount.toNat = s.t.hend then true else s.deferPending
      evt := if s.hcount.toNat = s.t.hend then true else false
      currentLine := if s.hcount.toNat = s.t.hend then nextLine s.t s.currentLine else s.currentLine
      savCmpNext := a, display := d, vsyncLevel := v, currentBand := b, bandTaken := k, dma := m, pixLatch := p }) := by
  obtain ⟨u, hu, rfl⟩ := exec_tick_eq_next e hf
  rw [tickEvents_eq_generate inv hrun hd] at hu
  obtain ⟨a, d, v, b, k, m, p, rfl⟩ := generate_frame hu
  exact ⟨a, d, v, b, k, m, p, rfl⟩

/-- Settles O20: SAV and BEAT write the stream and the pixel latch alone, so what moves is moved by EAV and ADVANCE. -/
theorem runningTickMovesTheBeam : Obligations.RunningTickMovesTheBeam := by
  unfold Obligations.RunningTickMovesTheBeam
  intro s t inv hrun hd e hf
  obtain ⟨-, hh, hl⟩ := inv.timing hrun
  obtain ⟨a, d, v, b, k, m, p, rfl⟩ := running_tick_frame inv hrun hd e hf
  clear hf e
  refine ⟨(advance_run _ _).trans hrun, advance_htgRan _ _, advance_tickH _ _, toNat_advance_hcount hh,
    ?_, ?_, ?_, ?_, ?_⟩
  · simp [advance_eq]
  · simp
  · rw [sample_currentLine, advance_currentLine]
    dsimp only
    split
    · exact toNat_nextLine hl
    · rfl
  · simp [or_comm]
  · simp

end Sys2Proof.Machine
end

section
/-! SUPPORT. A TICK as the sequence of its named sub-events (spec/40_horizontal_timing.md R130): the writes of a list of
operations run one after another, and that they are the TICK's. -/

namespace Sys2Proof.Machine

/-- The writes of operations run one after another, or the first fault (`execAll` without the agents around them). -/
def effects : List Instr → State → Except Fault State
  | [], s => .ok s
  | i :: is, s => (effect i s).bind (effects is)

/-- Operations other than RESET whose writes all succeed. -/
theorem execAll_of_effects_ok {is : List Instr} (hr : .reset ∉ is) {s t : State} (hf : s.fault = none)
    (e : effects is s = .ok t) : execAll is s = .next t ∧ t.fault = none := by
  induction is generalizing s with
  | nil =>
    cases e
    exact ⟨rfl, hf⟩
  | cons i is ih =>
    obtain ⟨hi, his⟩ := not_or.1 (List.mem_cons.not.1 hr)
    obtain ⟨u, hu, e⟩ := bind_eq_ok_iff.1 e
    have hfu : u.fault = none := (effect_sameOutside (Ne.symm hi) hu).1.trans hf
    rw [execAll, exec_next hf (Ne.symm hi) hu]
    simpa [hfu] using ih his hfu e

/-- Operations other than RESET one of which raises a fault: they stop there. -/
theorem execAll_of_effects_error {is : List Instr} (hr : .reset ∉ is) {s : State} {c : Fault} (hf : s.fault = none)
    (e : effects is s = .error c) : ∃ t, execAll is s = .next t ∧ t.fault = some c := by
  induction is generalizing s with
  | nil => cases e
  | cons i is ih =>
    obtain ⟨hi, his⟩ := not_or.1 (List.mem_cons.not.1 hr)
    rcases bind_eq_error_iff.1 e with e | ⟨u, hu, e⟩
    · exact ⟨s.raise c, by rw [execAll, exec_raise hf (Ne.symm hi) e]; rfl, rfl⟩
    · have hfu : u.fault = none := (effect_sameOutside (Ne.symm hi) hu).1.trans hf
      rw [execAll, exec_next hf (Ne.symm hi) hu]
      simpa [hfu] using ih his hfu e

/-- A TICK with the writes of some operations is these operations in order, a fault of one being its whole effect. -/
theorem exec_tick_of_effects {events : List Instr} (hr : .reset ∉ events) {s : State} (hf : s.fault = none)
    (h : effects events s.beginTick = effect .tick s) :
    ∃ t, execAll events s.beginTick = .next t
      ∧ exec .tick s = .next (if t.fault = none then t else { s with fault := t.fault }) := by
  cases e : effect .tick s with
  | ok t =>
    obtain ⟨all, hft⟩ := execAll_of_effects_ok hr (s := s.beginTick) hf (h.trans e)
    exact ⟨t, all, by rw [exec_next hf (i := .tick) nofun e, if_pos hft]⟩
  | error c =>
    obtain ⟨t, all, hft⟩ := execAll_of_effects_error hr (s := s.beginTick) hf (h.trans e)
    exact ⟨t, all, by rw [exec_raise hf (i := .tick) nofun e, hft, if_neg (by simp)]⟩

theorem effects_cfgDrain {s : State} (h : drainReady s = true) :
    effects [.tickCfgDrain, .tickSample] s = (tickEvents s).bind fun t => .ok (sample t) := by
  simp [effects, effect, whenEnabled_true, h, tickEvents_drain h]

theorem effects_cfgLoad {s : State} (hq : s.cfgPhase = .quiesce) :
    effects [.tickCfgLoad, .tickSample] s = (tickEvents s).bind fun t => .ok (sample t) := by
  simp [effects, effect, whenEnabled_true, hq, tickEvents_quiesce hq]

/-- A running state in which the TICK has taken its position `x` down (R130 sub-step 4). -/
structure State.Latched (s : State) (x : Half) : Prop where
  run : s.run = true
  hcount : s.hcount = x
  htgRan : s.htgRan = true
  tickH : s.tickH = x

namespace State.Latched

theorem latchH_self {s : State} {x : Half} (h : s.Latched x) : s.latchH = s := by
  obtain ⟨-, hcount, hran, htick⟩ := h
  cases s
  simp only at hcount hran htick
  simp [State.latchH, hcount, hran, htick]

theorem sav {s t : State} {x y : Half} (h : s.Latched x) (e : sav y s = .ok t) : t.Latched x := by
  obtain ⟨m, rfl⟩ := sav_frame e
  exact { h with }

theorem beat {s t : State} {x : Half} (h : s.Latched x) (e : beat s = .ok t) : t.Latched x := by
  obtain ⟨m, p, rfl⟩ := beat_frame e
  exact { h with }

theorem eavAt {s t : State} {x y : Half} (h : s.Latched x) (e : eavAt y s = .ok t) : t.Latched x := by
  obtain ⟨a, d, v, b, k, rfl⟩ := eavAt_frame e
  exact { h with }

theorem effect_beat {s : State} {x : Half} (h : s.Latched x) : effect .tickBeat s = Machine.beat s := by
  rw [effect, h.run, whenEnabled_true, h.latchH_self]

theorem effect_eav {s : State} {x : Half} (h : s.Latched x) : effect .tickEav s = Machine.eavAt x s := by
  rw [effect, h.run, whenEnabled_true, h.latchH_self, h.hcount]

theorem effect_advance {s : State} {x : Half} (h : s.Latched x) : effect .tickAdvance s = .ok (advance x s) := by
  rw [effect, h.run, whenEnabled_true, h.latchH_self, h.hcount]

end State.Latched

theorem effect_sav {s : State} (hrun : s.run = true) : effect .tickSav s = sav s.hcount s.latchH := by
  rw [effect, hrun, whenEnabled_true]

/-- Each sub-event of the generator finds the position and the TICK's locals as the one before it did. -/
theorem effects_generate {s : State} (hrun : s.run = true) :
    effects [.tickSav, .tickBeat, .tickEav, .tickAdvance, .tickSample] s
      = (generate s).bind fun t => .ok (sample t) := by
  have latched : s.latchH.Latched s.hcount := ⟨hrun, rfl, rfl, rfl⟩
  unfold generate effects
  rw [effect_sav hrun]
  cases e1 : sav s.hcount s.latchH with
  | error c => rfl
  | ok s1 =>
    have at1 := latched.sav e1
    simp only [ok_bind, effects, at1.effect_beat]
    cases e2 : beat s1 with
    | error c => rfl
    | ok s2 =>
      have at2 := at1.beat e2
      simp only [ok_bind, at2.effect_eav]
      cases e3 : eavAt s.hcount s2 with
      | error c => rfl
      | ok s3 =>
        simp only [ok_bind, (at2.eavAt e3).effect_advance]
        rfl

/-- Settles O21, by the writes of the sub-events of each phase. -/
theorem tickIsItsSubEvents : Obligations.TickIsItsSubEvents := by
  unfold Obligations.TickIsItsSubEvents
  intro s hf
  refine ⟨fun hd => exec_tick_of_effects (by simp) hf ?_, fun hq => exec_tick_of_effects (by simp) hf ?_,
    fun ⟨hrun, hc⟩ => exec_tick_of_effects (by simp) hf ?_⟩
  · exact effects_cfgDrain ((drainReady_iff s.beginTick).2 hd)
  · exact effects_cfgLoad (s := s.beginTick) hq
  · have no_drain : drainReady s.beginTick = false := by rcases hc with hi | ⟨-, hb⟩ <;> simp [drainReady, *]
    have no_load : s.beginTick.cfgPhase ≠ .quiesce := by rcases hc with hi | ⟨hd, -⟩ <;> simp [*]
    rw [effect_tick, tickEvents_running no_drain no_load hrun]
    exact effects_generate (s := s.beginTick) hrun

end Sys2Proof.Machine
end

section
/-! SUPPORT. The stopped generator (spec/40_horizontal_timing.md R136, spec/60_exceptions.md R266): what an operation writes,
while `RUN = 0`, of what SAV, BEAT, EAV and ADVANCE write. -/

namespace Sys2Proof.Machine

/-- What the generator and the configuration sequencer write and the statement of R136 speaks of; the handoff flag, which the
host writes too, is in `Control`. -/
structure Generator where
  run : Bool
  t : Timing
  hcount : Half
  savCmp : Half
  savCmpNext : Half
  display : DisplayState
  currentLine : Half
  vsyncLevel : Bool
  deferPending : Bool
  dma : Dma
  pixLatch : Byte

def State.generator (s : State) : Generator where
  run := s.run
  t := s.t
  hcount := s.hcount
  savCmp := s.savCmp
  savCmpNext := s.savCmpNext
  display := s.display
  currentLine := s.currentLine
  vsyncLevel := s.vsyncLevel
  deferPending := s.deferPending
  dma := s.dma
  pixLatch := s.pixLatch

/-- What an operation other than RESET can leave of the generator when it is taken in a state `s` with `RUN = 0`. -/
inductive StoppedWrites (s : State) (i : Instr) : Generator → Prop
  | keeps : StoppedWrites s i s.generator
  | halt : StoppedWrites s i { s.generator with hcount := 0 }
  | dispatch : StoppedWrites s i { s.generator with deferPending := false }
  | load : i = .tick ∨ i = .tickCfgLoad → s.cfgPhase = .quiesce → StoppedWrites s i (loadTiming s).generator

theorem StoppedWrites.of_eq {s : State} {i : Instr} {g : Generator} (h : g = s.generator) : StoppedWrites s i g :=
  h ▸ .keeps

theorem drainHalt_stopped {s : State} (i : Instr) (hrun : s.run = false) :
    StoppedWrites s i (drainHalt s).generator := by
  have same : (drainHalt s).generator = { s.generator with hcount := 0 } := by simp [State.generator, hrun]
  exact same ▸ .halt

theorem cfgLoad_stopped {i : Instr} {s t : State} (hi : i = .tick ∨ i = .tickCfgLoad) (hq : s.cfgPhase = .quiesce)
    (e : cfgLoad s = .ok t) : StoppedWrites s i t.generator := by
  rcases cfgLoad_eq_ok e with ⟨-, rfl⟩ | ⟨-, -, rfl⟩
  · exact .keeps
  · exact .load hi hq

/-- The sub-steps of a TICK with `RUN = 0` run no generator (R136). -/
theorem tickEvents_stoppedWrites {s t : State} (hrun : s.run = false) (e : tickEvents s = .ok t) :
    StoppedWrites s .tick t.generator := by
  rcases tickEvents_eq_ok e with ⟨-, rfl⟩ | ⟨hq, e⟩ | ⟨-, -, hr, -⟩ | ⟨-, -, -, rfl⟩
  · exact drainHalt_stopped _ hrun
  · exact cfgLoad_stopped (.inl rfl) hq e
  · exact absurd (hrun.symm.trans hr) Bool.false_ne_true
  · exact .keeps

/-- Sub-step 1 of a TICK writes nothing of the generator. -/
theorem StoppedWrites.of_beginTick {s : State} {g : Generator} (h : StoppedWrites s.beginTick .tick g) :
    StoppedWrites s .tick g := by
  cases h with
  | keeps => exact .keeps
  | halt => exact .halt
  | dispatch => exact .dispatch
  | load hi hq => exact .load hi hq

theorem effect_stoppedWrites {i : Instr} {s t : State} (hne : i ≠ .reset) (hrun : s.run = false)
    (e : effect i s = .ok t) : StoppedWrites s i t.generator := by
  have guarded {b : Bool} {body : Except Fault State} (e : whenEnabled b s body = .ok t)
      (taken : b = true → body = .ok t → StoppedWrites s i t.generator) : StoppedWrites s i t.generator :=
    whenEnabled_induction (P := fun t => StoppedWrites s i t.generator) e .keeps taken
  have unlessBusy_keeps {u : State} (e : unlessBusy s u = .ok t) (h : u.generator = s.generator) :
      StoppedWrites s i t.generator :=
    unlessBusy_induction (P := fun t => StoppedWrites s i t.generator) e .keeps fun _ => .of_eq h
  cases i with
  | reset => exact absurd rfl hne
  | tick =>
    obtain ⟨u, hu, e⟩ := bind_eq_ok_iff.1 e
    cases e
    exact (tickEvents_stoppedWrites (s := s.beginTick) hrun hu).of_beginTick
  | tickCfgDrain => exact guarded e fun _ e => by cases e; exact drainHalt_stopped _ hrun
  | tickCfgLoad => exact guarded e fun hq e => cfgLoad_stopped (.inr rfl) (by simpa using hq) e
  | tickSav | tickBeat | tickEav | tickAdvance =>
    exact guarded e fun hr _ => absurd (hrun.symm.trans hr) Bool.false_ne_true
  | druDispatch => exact guarded e fun _ e => by cases e; exact .dispatch
  | druCopy => exact guarded e fun _ e => by rcases copyStep_eq_ok e with ⟨-, w, -, rfl⟩ | ⟨-, rfl⟩ <;> exact .keeps
  | druTail => exact guarded e fun _ e => by obtain ⟨sb, -, rfl⟩ := tailStep_eq_ok e; exact .keeps
  | druSched =>
    exact guarded e fun _ e => by
      rcases schedStep_eq_ok e with ⟨-, -, rfl⟩ | ⟨-, -, n, -, rfl⟩ | ⟨-, -, rfl⟩ <;> exact .keeps
  | rastWb8 => exact guarded e fun _ e => by obtain ⟨-, rfl⟩ := wb8Step_eq_ok e; exact .keeps
  | rastWb32 => exact guarded e fun _ e => by obtain ⟨-, rfl⟩ := wb32Step_eq_ok e; exact .keeps
  | rastResp => exact guarded e fun _ e => by obtain ⟨-, rfl⟩ := respStep_eq_ok e; exact .keeps
  | druTerm | druHookReq | hookAck => exact guarded e fun _ e => by cases e; exact .keeps
  | wrCmd => exact unlessBusy_keeps e (by split <;> rfl)
  | wrCtrl | wrTLinePixels | wrTSyncPixels | wrTBackPorchPixels | wrTVideoLead | wrTVideoPixels | wrTPolarity
  | wrTVsyncStartLine | wrTVsyncEndLine | wrTVideoStartLine | wrTVideoEndLine | wrTClockConfig =>
    exact unlessBusy_keeps e rfl
  | _ => cases e; exact .keeps

/-- An operation but RESET that answers a state: a fault writes nothing of the generator. -/
theorem exec_stoppedWrites {i : Instr} {s t : State} (hne : i ≠ .reset) (hrun : s.run = false)
    (e : exec i s = .next t) : StoppedWrites s i t.generator := by
  rcases exec_eq_next e with ⟨hi, -⟩ | ⟨-, -, e | ⟨c, -, rfl⟩⟩
  · exact absurd hi hne
  · exact effect_stoppedWrites hne hrun e
  · exact .keeps

/-- What each write leaves of the generator: where the beam, the stream and the request of a stopped generator stay, and
that `RUN` is set by CFG_LOAD alone (R136, R266). -/
theorem StoppedWrites.fields {i : Instr} {s : State} {g : Generator} (h : StoppedWrites s i g) (hrun : s.run = false) :
    g.pixLatch = s.pixLatch ∧ g.dma = s.dma ∧ (g.hcount = s.hcount ∨ g.hcount = 0)
      ∧ (g.deferPending = true → s.deferPending = true)
      ∧ ((g.run = true ∧ (i = .tick ∨ i = .tickCfgLoad) ∧ s.cfgPhase = .quiesce ∧ g.vsyncLevel = !g.t.vpol)
        ∨ (g.run = false ∧ g.vsyncLevel = s.vsyncLevel ∧ g.currentLine = s.currentLine ∧ g.display = s.display
          ∧ g.savCmp = s.savCmp ∧ g.savCmpNext = s.savCmpNext)) := by
  cases h with
  | keeps => exact ⟨rfl, rfl, .inl rfl, id, .inr ⟨hrun, rfl, rfl, rfl, rfl, rfl⟩⟩
  | halt => exact ⟨rfl, rfl, .inr rfl, id, .inr ⟨hrun, rfl, rfl, rfl, rfl, rfl⟩⟩
  | dispatch => exact ⟨rfl, rfl, .inl rfl, nofun, .inr ⟨hrun, rfl, rfl, rfl, rfl, rfl⟩⟩
  | load hi hq => exact ⟨rfl, rfl, .inl rfl, id, .inl ⟨rfl, hi, hq, rfl⟩⟩

/-- Settles O60: with `RUN = 0` an operation keeps the generator, zeroes its counter, takes its request or loads; and the
handoff flag is set with `RUN = 1` alone. -/
theorem stoppedGeneratorDoesNothing : Obligations.StoppedGeneratorDoesNothing := by
  unfold Obligations.StoppedGeneratorDoesNothing
  intro i s t _ e hne hrun
  have no_handoff : t.bandTaken = true → s.bandTaken = true := fun ht => by
    rcases (exec_writes hne e).bandTaken_cases with same | ⟨-, -, hr, -⟩ | ⟨clear, -⟩
    · exact same.symm.trans ht
    · exact absurd (hrun.symm.trans hr) Bool.false_ne_true
    · exact absurd (clear.symm.trans ht) Bool.false_ne_true
  obtain ⟨hpix, hdma, hcount, hdefer, ⟨hr, hi, hq, hv⟩ | ⟨hr, hv, hframe⟩⟩ :=
    (exec_stoppedWrites hne hrun e).fields hrun
  · replace hr : t.run = true := hr
    refine ⟨hpix, hdma, hcount, ?_, hdefer, no_handoff, fun _ => ⟨hi, hq⟩, fun h => ?_⟩
    · rw [if_pos hr]
      exact hv
    · exact absurd (h.symm.trans hr) Bool.false_ne_true
  · replace hr : t.run = false := hr
    refine ⟨hpix, hdma, hcount, ?_, hdefer, no_handoff, fun h => ?_, fun _ => hframe⟩
    · rw [if_neg (by simp [hr])]
      exact hv
    · exact absurd (hr.symm.trans h) Bool.false_ne_true

end Sys2Proof.Machine
end

section
/-! SUPPORT. EAV (spec/41_vertical_state_machine.md R150 to R158), each part said once as an equation: its guards, the arm of
every line but the STARTING one, the node reads of the STARTING arm, and what each comes to as the sub-event alone. -/

namespace Sys2Proof.Machine

/-! ### Guards (R150, R151) -/

theorem eavAt_hend {h : Half} {s : State} (hend : h.toNat = s.t.hend) : eavAt h s = eav s := by
  rw [eavAt, if_pos hend]

/-- The exact comparison of `SAV_RANGE` with its subtraction moved to the other side (R133, R151). -/
theorem hend_le_savPoint_iff (x : Timing) (o : Half) :
    (x.hend : Int) ≤ savPoint x o ↔ x.hend + x.videoLead.toNat ≤ x.hstart + o.toNat := by
  unfold savPoint
  omega

theorem eav_savRange {s : State} (h : s.t.hend + s.t.videoLead.toNat ≤ s.t.hstart + s.workShape.offset.toNat) :
    eav s = .error .savRange := by
  unfold eav
  exact if_pos ((hend_le_savPoint_iff _ _).2 h)

/-- With its SAV point in range EAV is its arm, and the next line (R151, R157). -/
theorem eav_inRange {s : State} (h : s.t.hstart + s.workShape.offset.toNat < s.t.hend + s.t.videoLead.toNat) :
    eav s = (eavArm (eavBegin s)).bind fun t => .ok { t with currentLine := nextLine s.t s.currentLine } := by
  unfold eav
  exact if_neg fun late => absurd ((hend_le_savPoint_iff _ _).1 late) (by omega)

/-! ### The arms off the STARTING line (R152, R153, R155, R156) -/

/-- The display state that EAV leaves on the line `l`, but for the STARTING one. -/
def displayAfter (x : Timing) (l : Half) (d : DisplayState) : DisplayState :=
  if l = 0 then .blank
  else if l = x.videoStartLine then .active
  else if l.toNat + 1 = x.videoEndLine.toNat then .finishing
  else d

/-- The VSYNC level that EAV leaves on the line `l` (R153). -/
def vsyncAfter (x : Timing) (l : Half) (v : Bool) : Bool :=
  if l = x.vsyncStartLine ∨ l = x.vsyncEndLine then !v else v

/-- In a well-formed timing the two VSYNC lines are neither the first line nor one that moves the display state. -/
theorem vsyncLine_elsewhere {x : Timing} {l : Half} (hw : x.wf = true)
    (h : l = x.vsyncStartLine ∨ l = x.vsyncEndLine) :
    l ≠ 0 ∧ l.toNat + 1 ≠ x.videoStartLine.toNat ∧ l ≠ x.videoStartLine ∧ l.toNat + 1 ≠ x.videoEndLine.toNat := by
  obtain ⟨-, -, -, -, -, hfirst, hsync, hporch, hlines⟩ := (wf_iff x).1 hw
  have bounds : 1 ≤ l.toNat ∧ l.toNat + 1 < x.videoStartLine.toNat := by
    rcases h with rfl | rfl
    · exact ⟨hfirst, by omega⟩
    · exact ⟨by omega, hporch⟩
  refine ⟨?_, by omega, ?_, by omega⟩
  · rintro rfl
    exact absurd bounds.1 (by decide)
  · rintro rfl
    omega

/-- Under `WF` the arms exclude each other, so the arm writes the display state and the VSYNC level each by the line. -/
theorem eavArm_elsewhere {s : State} (hw : s.t.wf = true)
    (hne : s.currentLine.toNat + 1 ≠ s.t.videoStartLine.toNat) :
    eavArm s = .ok { s with
      display := displayAfter s.t s.currentLine s.display
      vsyncLevel := vsyncAfter s.t s.currentLine s.vsyncLevel } := by
  unfold eavArm displayAfter vsyncAfter
  by_cases hv : s.currentLine = s.t.vsyncStartLine ∨ s.currentLine = s.t.vsyncEndLine
  · obtain ⟨h0, -, hs, he⟩ := vsyncLine_elsewhere hw hv
    simp only [if_neg h0, if_pos hv, if_neg hs, if_neg he]
  · simp only [if_neg hv, if_neg hne]
    by_cases h0 : s.currentLine = 0
    · simp only [if_pos h0]
    · by_cases hs : s.currentLine = s.t.videoStartLine
      · simp only [if_neg h0, if_pos hs]
      · by_cases he : s.currentLine.toNat + 1 = s.t.videoEndLine.toNat
        · simp only [if_neg h0, if_neg hs, if_pos he]
        · simp only [if_neg h0, if_neg hs, if_neg he]

/-! ### The STARTING line (R154) -/

/-- The STARTING line is after both VSYNC lines and before the last line of the frame. -/
theorem startingLine_elsewhere {x : Timing} {l : Half} (hw : x.wf = true)
    (h : l.toNat + 1 = x.videoStartLine.toNat) :
    l ≠ 0 ∧ ¬(l = x.vsyncStartLine ∨ l = x.vsyncEndLine) ∧ l.toNat + 1 ≠ x.videoEndLine.toNat := by
  obtain ⟨-, -, -, -, -, -, -, hporch, hlines⟩ := (wf_iff x).1 hw
  refine ⟨?_, fun hv => (vsyncLine_elsewhere hw hv).2.1 h, by omega⟩
  rintro rfl
  replace h : 0 + 1 = x.videoStartLine.toNat := h
  omega

theorem eavArm_starting {s : State} (hw : s.t.wf = true)
    (h : s.currentLine.toNat + 1 = s.t.videoStartLine.toNat) : eavArm s = startingArm s := by
  obtain ⟨h0, hv, -⟩ := startingLine_elsewhere hw h
  unfold eavArm
  simp only [if_neg h0, if_neg hv, if_pos h]

theorem memRead_misaligned {s : State} {a : ℕ} (h : a % 4 ≠ 0) : memRead s a = .error .bandMisaligned := by
  rw [memRead, if_pos h]

theorem memRead_aligned {s : State} {a : ℕ} (h : a % 4 = 0) :
    memRead s a = if isMapped s.params a = false then .error .busError else .ok (wordAt s.hostMem a) := by
  rw [memRead, if_neg (not_not.2 h)]
  rfl

theorem readNode_misaligned {s : State} {p : Word} (h : p.toNat % 4 ≠ 0) :
    readNode s p = .error .bandMisaligned := by
  rw [readNode, memRead_misaligned h, error_bind]

/-- A node with a word that is not mapped is a bus error, whichever of its words that is (R66, R70). -/
theorem readNode_unmapped {s : State} {p : Word} {k : ℕ} (h : p.toNat % 4 = 0) (hk : k ∈ [0, 4, 8])
    (hm : isMapped s.params (p.toNat + k) = false) : readNode s p = .error .busError := by
  rw [readNode, memRead_aligned h, memRead_aligned (a := p.toNat + 4) (by omega),
    memRead_aligned (a := p.toNat + 8) (by omega)]
  simp only [List.mem_cons, List.not_mem_nil, or_false] at hk
  rcases hk with rfl | rfl | rfl
  · rw [if_pos (by exact hm), error_bind]
  · rw [if_pos hm]
    split <;> rfl
  · rw [if_pos hm]
    split
    · rfl
    · split <;> rfl

/-- An aligned node with its three words mapped is these words (R66, R70). -/
theorem readNode_mapped {s : State} {p : Word} (h : p.toNat % 4 = 0)
    (hm : ∀ k ∈ [0, 4, 8], isMapped s.params (p.toNat + k) = true) :
    readNode s p
      = .ok ⟨wordAt s.hostMem p.toNat, wordAt s.hostMem (p.toNat + 4), wordAt s.hostMem (p.toNat + 8)⟩ :=
  readNode_eq_ok_iff.2 ⟨memRead_eq_ok_iff.2 ⟨h, hm 0 (by decide), rfl⟩,
    memRead_eq_ok_iff.2 ⟨by omega, hm 4 (by decide), rfl⟩, memRead_eq_ok_iff.2 ⟨by omega, hm 8 (by decide), rfl⟩⟩

/-- The band that the STARTING arm snapshots when its reads succeed. -/
def headBand (m : Cells) (head : Word) : Band :=
  if head = 0 then Band.empty
  else ⟨wordAt m head.toNat, wordAt m (head.toNat + 4), wordAt m (head.toNat + 8)⟩

theorem startingArm_snapshots {s : State}
    (h : s.bandHead = 0
      ∨ (s.bandHead.toNat % 4 = 0 ∧ ∀ k ∈ [0, 4, 8], isMapped s.params (s.bandHead.toNat + k) = true)) :
    startingArm s = .ok { s with
      currentBand := headBand s.hostMem s.bandHead, bandTaken := true, display := .starting } := by
  unfold startingArm headBand
  by_cases h0 : s.bandHead = 0
  · simp only [if_pos h0]
  · obtain ⟨h4, hm⟩ := h.resolve_left h0
    rw [if_neg h0, if_neg h0, readNode_mapped h4 hm, ok_bind]

/-- A fault of the node read is the STARTING arm's. -/
theorem startingArm_faults {s : State} {c : Fault} (h0 : s.bandHead ≠ 0) (h : readNode s s.bandHead = .error c) :
    startingArm s = .error c := by
  rw [startingArm, if_neg h0, h, error_bind]

/-! ### The sub-event alone -/

theorem effect_tickEav {s : State} (hrun : s.run = true) : effect .tickEav s = eavAt s.hcount s.latchH := by
  rw [effect, hrun, whenEnabled_true]

section Alone
variable {s : State} (hf : s.fault = none) (hrun : s.run = true) (hend : s.hcount.toNat = s.t.hend)
include hf hrun hend

/-- A fault of EAV is the whole effect of the sub-event (R260.1). -/
theorem exec_tickEav_raises {c : Fault} (e : eav s.latchH = .error c) :
    exec .tickEav s = .next { s with fault := some c } :=
  exec_raise hf nofun (by rw [effect_tickEav hrun, eavAt_hend (s := s.latchH) hend, e])

variable (hin : s.t.hstart + s.workShape.offset.toNat < s.t.hend + s.t.videoLead.toNat)
include hin

theorem exec_tickEav_of_arm {t : State} (e : eavArm (eavBegin s.latchH) = .ok t) :
    exec .tickEav s = .next { t with currentLine := nextLine s.t s.currentLine } := by
  refine exec_next hf nofun ?_
  rw [effect_tickEav hrun, eavAt_hend (s := s.latchH) hend, eav_inRange (s := s.latchH) hin, e]
  rfl

theorem exec_tickEav_of_arm_error {c : Fault} (e : eavArm (eavBegin s.latchH) = .error c) :
    exec .tickEav s = .next { s with fault := some c } :=
  exec_tickEav_raises hf hrun hend (by rw [eav_inRange (s := s.latchH) hin, e, error_bind])

end Alone

end Sys2Proof.Machine
end

section
/-! SUPPORT. The statements of spec/41_vertical_state_machine.md about `TICK.EAV` alone (notes/assumptions/4.md). -/

namespace Sys2Proof.Machine

/-- Settles O28, by the two guards of EAV and its first check. -/
theorem eavGuards : Obligations.EavGuards := by
  unfold Obligations.EavGuards
  intro s hf
  refine ⟨fun hrun => ?_, fun hrun hne => ?_, fun hrun hend hlate => ?_⟩
  · exact exec_next hf nofun (by rw [effect, hrun, whenEnabled_false])
  · exact exec_next hf nofun ((effect_tickEav hrun).trans (eavAt_elsewhere (s := s.latchH) hne))
  · exact exec_tickEav_raises hf hrun hend (eav_savRange (s := s.latchH) hlate)

/-- Settles O26: off the STARTING line the arm writes by the line alone, and the SAV point fits its field. -/
theorem eavRule : Obligations.EavRule := by
  unfold Obligations.EavRule
  intro s hf hrun hw hend hne hin
  have arm := eavArm_elsewhere (s := eavBegin s.latchH) hw hne
  exact ⟨_, toNat_savPoint s.t _ hw hin, exec_tickEav_of_arm hf hrun hend hin arm⟩

/-- Settles O27: at the STARTING line the arm is the node read, whose faults are the operation's, and the snapshot. -/
theorem eavStartingRule : Obligations.EavStartingRule := by
  unfold Obligations.EavStartingRule
  intro s hf hrun hw hend hl hin
  have arm : eavArm (eavBegin s.latchH) = startingArm (eavBegin s.latchH) := eavArm_starting hw hl
  refine ⟨fun hodd => ?_, fun h0 h4 ⟨k, hk, hm⟩ => ?_, fun hhead => ?_⟩
  · have h0 : s.bandHead ≠ 0 := fun h => hodd (by rw [h]; rfl)
    have misaligned := readNode_misaligned (s := eavBegin s.latchH) hodd
    exact exec_tickEav_of_arm_error hf hrun hend hin (arm.trans (startingArm_faults h0 misaligned))
  · have unmapped := readNode_unmapped (s := eavBegin s.latchH) h4 hk hm
    exact exec_tickEav_of_arm_error hf hrun hend hin (arm.trans (startingArm_faults h0 unmapped))
  · have next : nextLine s.t s.currentLine = s.currentLine + 1 :=
      if_neg (startingLine_elsewhere hw hl).2.2
    have snapshot := arm.trans (startingArm_snapshots (s := eavBegin s.latchH) hhead)
    refine ⟨_, toNat_savPoint s.t _ hw hin, ?_⟩
    rw [exec_tickEav_of_arm hf hrun hend hin snapshot, next]
    rfl

end Sys2Proof.Machine
end

section
/-! SUPPORT. The VSYNC pulse (spec/41_vertical_state_machine.md R160): the level that EAV leaves belongs to the next line, and no
other part of an operation moves the level or the line of a running generator. -/

namespace Sys2Proof.Machine

/-- The lines of the VSYNC pulse (R160). -/
abbrev pulseLine (x : Timing) (l : Half) : Prop :=
  x.vsyncStartLine.toNat < l.toNat ∧ l.toNat ≤ x.vsyncEndLine.toNat

/-- The next line is in the pulse as this one is, but for the two lines on which EAV toggles the level. -/
theorem pulseLine_nextLine {x : Timing} {l : Half} (hw : x.wf = true) (hl : l.toNat < x.videoEndLine.toNat) :
    pulseLine x (nextLine x l) ↔
      if l = x.vsyncStartLine ∨ l = x.vsyncEndLine then ¬pulseLine x l else pulseLine x l := by
  obtain ⟨-, -, -, -, -, hfirst, hsync, hporch, hlines⟩ := (wf_iff x).1 hw
  simp only [← BitVec.toNat_inj]
  rcases nextLine_cases hl with ⟨hlast, hn⟩ | ⟨-, hn⟩
  · have zero : (0 : Half).toNat = 0 := rfl
    simp only [pulseLine, hn, zero]
    split <;> omega
  · simp only [pulseLine, hn]
    split <;> omega

/-- An EAV toggles the level on the two VSYNC lines and on no other (R153). -/
theorem eav_vsyncLevel {s t : State} (hw : s.t.wf = true) (e : eav s = .ok t) :
    t.vsyncLevel = vsyncAfter s.t s.currentLine s.vsyncLevel := by
  obtain ⟨-, u, hu, rfl⟩ := eav_eq_ok e
  by_cases hl : s.currentLine.toNat + 1 = s.t.videoStartLine.toNat
  · rw [eavArm_starting (s := eavBegin s) hw hl] at hu
    obtain ⟨n, -, rfl⟩ := startingArm_eq_ok hu
    rw [vsyncAfter, if_neg (startingLine_elsewhere hw hl).2.1]
    rfl
  · rw [eavArm_elsewhere (s := eavBegin s) hw hl] at hu
    cases hu
    rfl

/-- While the generator runs, VSYNC is at its pulse level on the lines of the pulse and on no other (R160). -/
def State.PulseInStep (s : State) : Prop := s.run = true → (s.vsyncLevel = s.t.vpol ↔ pulseLine s.t s.currentLine)

namespace State.PulseInStep

/-! ### The parts of a TICK -/

theorem sav {x : Half} {s t : State} (h : s.PulseInStep) (e : sav x s = .ok t) : t.PulseInStep := by
  obtain ⟨m, rfl⟩ := sav_frame e
  exact h

theorem beat {s t : State} (h : s.PulseInStep) (e : beat s = .ok t) : t.PulseInStep := by
  obtain ⟨m, p, rfl⟩ := beat_frame e
  exact h

theorem eavAt {x y : Half} {s t : State} (h : s.PulseInStep) (r : s.RunsAt x) (e : eavAt y s = .ok t) :
    t.PulseInStep := by
  rcases eavAt_eq_ok e with ⟨-, e⟩ | ⟨-, rfl⟩
  · obtain ⟨hw, -, hl⟩ := r.inv.timing r.run
    have level := eav_vsyncLevel hw e
    obtain ⟨d, v, b, k, rfl⟩ := eav_frame e
    replace level : v = vsyncAfter s.t s.currentLine s.vsyncLevel := level
    intro _
    show v = s.t.vpol ↔ pulseLine s.t (nextLine s.t s.currentLine)
    rw [level, vsyncAfter, pulseLine_nextLine hw hl, ← h r.run]
    split
    · exact Bool.not_eq_iff
    · rfl
  · exact h

theorem advance {s : State} (h : s.PulseInStep) (x : Half) : (advance x s).PulseInStep := by
  rw [advance_eq]
  exact h

theorem generate {s t : State} (h : s.PulseInStep) (r : s.RunsAt s.hcount) (e : generate s = .ok t) :
    t.PulseInStep := by
  obtain ⟨s1, s2, s3, e1, e2, e3, rfl⟩ := generate_eq_ok e
  have h2 := PulseInStep.beat (PulseInStep.sav (s := s.latchH) h e1) e2
  exact (h2.eavAt ((r.latchH.sav e1).beat e2) e3).advance _

theorem cfgLoad {s t : State} (h : s.PulseInStep) (e : cfgLoad s = .ok t) : t.PulseInStep := by
  rcases cfgLoad_eq_ok e with ⟨-, rfl⟩ | ⟨-, -, rfl⟩
  · exact h
  · intro _
    show (!s.sh.vpol) = s.sh.vpol ↔ pulseLine s.sh 0
    simp [pulseLine]

theorem drainHalt (s : State) : (drainHalt s).PulseInStep := nofun

theorem tickEvents {s t : State} (h : s.PulseInStep) (inv : s.Inv) (e : tickEvents s = .ok t) : t.PulseInStep := by
  rcases tickEvents_eq_ok e with ⟨-, rfl⟩ | ⟨-, e⟩ | ⟨-, -, hrun, e⟩ | ⟨-, -, -, rfl⟩
  · exact drainHalt s
  · exact h.cfgLoad e
  · exact h.generate (inv.runsAt hrun) e
  · exact h

/-! ### Every operation -/

theorem effect {i : Instr} {s t : State} (h : s.PulseInStep) (inv : s.Inv) (e : effect i s = .ok t) :
    t.PulseInStep := by
  have guarded {b : Bool} {body : Except Fault State} (e : whenEnabled b s body = .ok t)
      (taken : b = true → body = .ok t → t.PulseInStep) : t.PulseInStep :=
    whenEnabled_induction (P := State.PulseInStep) e h taken
  have register {u : State} (e : unlessBusy s u = .ok t) (hu : u.PulseInStep) : t.PulseInStep :=
    unlessBusy_induction (P := State.PulseInStep) e h fun _ => hu
  cases i with
  | reset => cases e; exact nofun
  | tick =>
    obtain ⟨u, hu, e⟩ := bind_eq_ok_iff.1 e
    cases e
    exact PulseInStep.tickEvents (s := s.beginTick) (t := u) h inv.beginTick hu
  | tickCfgDrain => exact guarded e fun _ e => by cases e; exact drainHalt s
  | tickCfgLoad => exact guarded e fun _ e => h.cfgLoad e
  | tickSav => exact guarded e fun _ e => PulseInStep.sav (s := s.latchH) h e
  | tickBeat => exact guarded e fun _ e => PulseInStep.beat (s := s.latchH) h e
  | tickEav => exact guarded e fun hrun e => PulseInStep.eavAt (s := s.latchH) h (inv.runsAt hrun).latchH e
  | tickAdvance => exact guarded e fun _ e => by cases e; exact PulseInStep.advance (s := s.latchH) h _
  | druCopy => exact guarded e fun _ e => by rcases copyStep_eq_ok e with ⟨-, w, -, rfl⟩ | ⟨-, rfl⟩ <;> exact h
  | druTail => exact guarded e fun _ e => by obtain ⟨sb, -, rfl⟩ := tailStep_eq_ok e; exact h
  | druSched =>
    exact guarded e fun _ e => by
      rcases schedStep_eq_ok e with ⟨-, -, rfl⟩ | ⟨-, -, n, -, rfl⟩ | ⟨-, -, rfl⟩ <;> exact h
  | rastWb8 => exact guarded e fun _ e => by obtain ⟨-, rfl⟩ := wb8Step_eq_ok e; exact h
  | rastWb32 => exact guarded e fun _ e => by obtain ⟨-, rfl⟩ := wb32Step_eq_ok e; exact h
  | rastResp => exact guarded e fun _ e => by obtain ⟨-, rfl⟩ := respStep_eq_ok e; exact h
  | druDispatch | druTerm | druHookReq | hookAck => exact guarded e fun _ e => by cases e; exact h
  | wrCmd => exact register e (by split <;> exact h)
  | wrCtrl | wrTLinePixels | wrTSyncPixels | wrTBackPorchPixels | wrTVideoLead | wrTVideoPixels | wrTPolarity
  | wrTVsyncStartLine | wrTVsyncEndLine | wrTVideoStartLine | wrTVideoEndLine | wrTClockConfig => exact register e h
  | _ => cases e; exact h

end State.PulseInStep

/-- Settles O59: an operation is its writes, RESET, which stops the generator, or a fault, which moves neither the level nor
the line. -/
theorem vsyncPulse : Obligations.VsyncPulse := by
  unfold Obligations.VsyncPulse
  intro i s t inv e level h
  rcases exec_eq_next e with ⟨-, rfl⟩ | ⟨-, -, e | ⟨c, -, rfl⟩⟩
  · exact nofun
  · exact State.PulseInStep.effect h inv e
  · exact h

end Sys2Proof.Machine
end

section
/-! SUPPORT. The DMA trigger and the pixel stream (spec/42_dma_trigger.md R170, R172): each outcome of SAV and of BEAT said
once as an equation, and the two sub-events alone (notes/assumptions/4.md). -/

namespace Sys2Proof.Machine

/-! ### SAV (R170) -/

/-- Off the trigger point, without display or without a count, SAV does nothing. -/
theorem sav_untriggered {h : Half} {s : State} (off : h ≠ s.savCmp ∨ s.display.displays = false ∨ s.dmaCount = 0) :
    sav h s = .ok s := by
  unfold sav
  split
  · rfl
  · split
    · rfl
    · exact if_pos ((off.resolve_left ‹_›).resolve_left ‹_›)

section Triggered

variable {h : Half} {s : State} (hsav : h = s.savCmp) (hd : s.display.displays = true) (hc : s.dmaCount ≠ 0)
include hsav hd hc

/-- At the trigger point of a displayed line with a count, what SAV does is left to its two checks. -/
theorem sav_triggered : sav h s =
    if s.dma.busy then .error .dmaOverlap
    else if s.t.linePixels.toNat < h.toNat + s.t.videoLead.toNat + s.dmaCount.toNat then .error .dmaPastLine
    else .ok { s with dma := armedStream s } := by
  rw [sav, if_neg (not_not.2 hsav), if_neg (ne_false_of_eq_true hd), if_neg hc]

theorem sav_overlap (hb : s.dma.busy = true) : sav h s = .error .dmaOverlap := by
  rw [sav_triggered hsav hd hc, if_pos hb]

theorem sav_pastLine (hb : s.dma.busy = false)
    (long : s.t.linePixels.toNat < h.toNat + s.t.videoLead.toNat + s.dmaCount.toNat) :
    sav h s = .error .dmaPastLine := by
  rw [sav_triggered hsav hd hc, if_neg (ne_true_of_eq_false hb), if_pos long]

theorem sav_arms (hb : s.dma.busy = false)
    (fits : h.toNat + s.t.videoLead.toNat + s.dmaCount.toNat ≤ s.t.linePixels.toNat) :
    sav h s = .ok { s with dma := armedStream s } := by
  rw [sav_triggered hsav hd hc, if_neg (ne_true_of_eq_false hb), if_neg (Nat.not_lt.2 fits)]

end Triggered

/-! ### BEAT (R172) -/

section Streaming

variable {s : State} (hb : s.dma.busy = true)
include hb

theorem beat_counts_down (hd : s.dma.delay ≠ 0) :
    beat s = .ok { s with dma := { s.dma with delay := s.dma.delay - 1 } } := by
  rw [beat, if_neg (ne_false_of_eq_true hb), if_pos hd]

variable (hd : s.dma.delay = 0)
include hd

theorem beat_unwritten (hcell : s.sb.read s.dma.idx.toNat = none) : beat s = .error .unwrittenRead := by
  rw [beat, if_neg (ne_false_of_eq_true hb), if_neg (not_not.2 hd), hcell]

theorem beat_moves {b : Byte} (hcell : s.sb.read s.dma.idx.toNat = some b) :
    beat s = .ok { s with pixLatch := b, dma := beatStream s.dma } := by
  rw [beat, if_neg (ne_false_of_eq_true hb), if_neg (not_not.2 hd), hcell]

end Streaming

theorem beatStream_of_busy {d : Dma} (hb : d.busy = true) : beatStream d =
    { d with busy := if d.idx.toNat + 1 = d.cnt.toNat then false else true, idx := d.idx + 1 } := by
  rw [beatStream, hb]

/-! ### The sub-events alone -/

theorem effect_tickBeat {s : State} (hrun : s.run = true) : effect .tickBeat s = beat s.latchH := by
  rw [effect, hrun, whenEnabled_true]

end Sys2Proof.Machine
end

section
/-! SUPPORT. The statements of spec/42_dma_trigger.md about `TICK.SAV` and `TICK.BEAT` alone (notes/assumptions/4.md). -/

namespace Sys2Proof.Machine

/-- Settles O24: the sub-event is SAV at the position it latches, each outcome by its own equation. -/
theorem savRule : Obligations.SavRule := by
  unfold Obligations.SavRule
  intro s hf
  refine ⟨fun hrun => exec_next hf nofun (by rw [effect, hrun, whenEnabled_false]), fun hrun => ?_⟩
  have alone : effect .tickSav s = sav s.hcount s.latchH := effect_sav hrun
  refine ⟨fun off => ?_, fun hsav hd hc => ⟨fun hb => ?_, fun hb long => ?_, fun hb fits => ?_⟩⟩
  · exact exec_next hf nofun (alone.trans (sav_untriggered (s := s.latchH) off))
  · exact exec_raise hf nofun (alone.trans (sav_overlap (s := s.latchH) hsav hd hc hb))
  · exact exec_raise hf nofun (alone.trans (sav_pastLine (s := s.latchH) hsav hd hc hb long))
  · exact exec_next hf nofun (alone.trans (sav_arms (s := s.latchH) hsav hd hc hb fits))

/-- Settles O25: the sub-event is BEAT in the state with the position latched, each outcome by its own equation. -/
theorem beatRule : Obligations.BeatRule := by
  unfold Obligations.BeatRule
  intro s hf
  refine ⟨fun hrun => exec_next hf nofun (by rw [effect, hrun, whenEnabled_false]), fun hrun => ?_⟩
  have alone : effect .tickBeat s = beat s.latchH := effect_tickBeat hrun
  refine ⟨fun hb => ?_, fun hb hd => ?_, fun hb hd => ⟨fun hcell => ?_, fun b hcell => ?_⟩⟩
  · exact exec_next hf nofun (alone.trans (beat_no_stream (s := s.latchH) hb))
  · exact exec_next hf nofun (alone.trans (beat_counts_down (s := s.latchH) hb hd))
  · exact exec_raise hf nofun (alone.trans (beat_unwritten (s := s.latchH) hb hd hcell))
  · have moves := alone.trans (beat_moves (s := s.latchH) hb hd hcell)
    rw [exec_next (i := .tickBeat) hf nofun moves, latchH_dma, beatStream_of_busy hb]
    rfl

end Sys2Proof.Machine
end

section
/-! SUPPORT. A stream stays inside its line (spec/42_dma_trigger.md R171, R173, R174): where SAV, BEAT and ADVANCE leave it, that
no other operation an agent schedules moves it or its line, and which faults each can raise. -/

namespace Sys2Proof.Machine

theorem toNat_sub_one {w : Nat} {x : BitVec w} (h : x ≠ 0) : (x - 1).toNat = x.toNat - 1 := by
  have pos : 0 < x.toNat := Nat.pos_of_ne_zero fun h0 => h (BitVec.eq_of_toNat_eq (by simpa using h0))
  have := x.isLt
  have one : (1 : BitVec w).toNat = 1 := Nat.mod_eq_of_lt (show 1 < 2 ^ w by omega)
  rw [BitVec.toNat_sub_of_le (by rw [BitVec.le_def, one]; exact pos), one]

/-! ### The faults of the parts of a TICK -/

theorem beat_eq_error {s : State} {c : Fault} (e : beat s = .error c) : c = .unwrittenRead := by
  unfold beat at e
  (repeat' split at e) <;> cases e
  rfl

theorem cfgLoad_eq_error {s : State} {c : Fault} (e : cfgLoad s = .error c) : c = .undefTiming := by
  unfold cfgLoad at e
  (repeat' split at e) <;> cases e
  rfl

theorem eavAt_eq_error {h : Half} {s : State} {c : Fault} (e : eavAt h s = .error c) : eav s = .error c := by
  unfold eavAt at e
  split at e
  · exact e
  · cases e

/-- A fault of the generator is SAV's, BEAT's or EAV's. -/
theorem generate_eq_error {s : State} {c : Fault} (e : generate s = .error c) :
    sav s.hcount s.latchH = .error c ∨ (∃ u, beat u = .error c) ∨ ∃ u, eav u = .error c := by
  rcases bind_eq_error_iff.1 e with e | ⟨s1, -, e⟩
  · exact .inl e
  · rcases bind_eq_error_iff.1 e with e | ⟨s2, -, e⟩
    · exact .inr (.inl ⟨s1, e⟩)
    · rcases bind_eq_error_iff.1 e with e | ⟨s3, -, e⟩
      · exact .inr (.inr ⟨s2, eavAt_eq_error e⟩)
      · cases e

theorem tickEvents_eq_error {s : State} {c : Fault} (e : tickEvents s = .error c) :
    cfgLoad s = .error c ∨ generate s = .error c := by
  unfold tickEvents at e
  split at e
  · cases e
  · split at e
    · exact .inl e
    · split at e
      · exact .inr e
      · cases e

/-! ### The stream within a TICK -/

/-- Within a TICK at position `x` a stream stands in its line, its next beats counted from position `n`: at `x` before the
BEAT, and one further after it (R171, R173). -/
structure State.OnTrack (s : State) (x n : ℕ) : Prop where
  armed : s.savCmp.toNat ≤ x
  room : s.dma.delay.toNat + (s.dma.cnt.toNat - s.dma.idx.toNat) + n ≤ s.t.linePixels.toNat
  position : n + s.dma.delay.toNat = s.savCmp.toNat + s.t.videoLead.toNat + s.dma.idx.toNat

theorem State.InLine.onTrack {s : State} (h : s.InLine) (hb : s.dma.busy = true) :
    s.OnTrack s.hcount.toNat s.hcount.toNat :=
  ⟨(h.armed hb).le, h.room hb, h.position hb⟩

/-- A running stream is past its trigger point (R171). -/
theorem State.InLine.hcount_ne_savCmp {s : State} (h : s.InLine) (hb : s.dma.busy = true) : s.hcount ≠ s.savCmp :=
  fun heq => absurd (h.armed hb) (by rw [heq]; exact lt_irrefl _)

/-- A stream that SAV arms begins at its trigger point and fits in its line (R170). -/
theorem sav_onTrack {x : Half} {s t : State} (h : s.dma.busy = true → s.OnTrack x.toNat x.toNat) (e : sav x s = .ok t)
    (hb : t.dma.busy = true) : t.OnTrack x.toNat x.toNat := by
  rcases sav_eq_ok e with rfl | ⟨rfl, -, -, -, fits, rfl⟩
  · exact h hb
  · refine ⟨le_rfl, ?_, rfl⟩
    show s.t.videoLead.toNat + (s.dmaCount.toNat - 0) + s.savCmp.toNat ≤ s.t.linePixels.toNat
    omega

/-- A BEAT spends one position of the stream: of its lead, or of its bytes (R172). -/
theorem beat_onTrack {x : ℕ} {s t : State} (inv : s.Inv) (h : s.dma.busy = true → s.OnTrack x x) (e : beat s = .ok t)
    (hb : t.dma.busy = true) : t.OnTrack x (x + 1) := by
  rcases beat_eq_ok e with ⟨idle, rfl⟩ | ⟨busy, hd, rfl⟩ | ⟨busy, -, b, -, rfl⟩
  · exact absurd (idle.symm.trans hb) Bool.false_ne_true
  · obtain ⟨armed, room, position⟩ := h busy
    have pos : s.dma.delay.toNat ≠ 0 := fun h0 => hd (BitVec.eq_of_toNat_eq h0)
    have counted : (s.dma.delay - 1).toNat = s.dma.delay.toNat - 1 := toNat_sub_one hd
    refine ⟨armed, ?_, ?_⟩ <;> dsimp only <;> omega
  · obtain ⟨armed, room, position⟩ := h busy
    obtain ⟨hi, hc⟩ := inv.beatIndex busy
    have hmax := bufBytes_le s.params
    have moved : (s.dma.idx + 1).toNat = s.dma.idx.toNat + 1 := toNat_add_one (by omega)
    refine ⟨armed, ?_, ?_⟩ <;> simp only [beatStream, moved] <;> omega

/-- A stream with bytes left has room for them, so ADVANCE ends no line under it (R171). -/
theorem advance_inLine {x : Half} {s : State} (inv : s.Inv) (h : s.dma.busy = true → s.OnTrack x.toNat (x.toNat + 1)) :
    (advance x s).InLine := by
  by_cases busy : s.dma.busy = true
  · obtain ⟨armed, room, position⟩ := h busy
    obtain ⟨hi, -⟩ := inv.beatIndex busy
    have := s.t.linePixels.isLt
    have same_line : ¬ x.toNat + 1 = s.t.linePixels.toNat := by omega
    have hx : (x + 1).toNat = x.toNat + 1 := toNat_add_one (by omega)
    rw [advance, if_neg same_line]
    refine ⟨fun _ => ?_, fun _ => ?_, fun _ => ?_⟩ <;> dsimp only <;> rw [hx]
    · exact Nat.lt_succ_of_le armed
    · exact room
    · exact position
  · refine ⟨fun hb => ?_, fun hb => ?_, fun hb => ?_⟩ <;> exact absurd (advance_dma x s ▸ hb) busy

namespace State.InLine

theorem of_no_stream {s : State} (hb : s.dma.busy = false) : s.InLine := by
  constructor <;> exact fun h => absurd (hb.symm.trans h) Bool.false_ne_true

theorem generate {s t : State} (h : s.InLine) (r : s.RunsAt s.hcount) (e : generate s = .ok t) : t.InLine := by
  obtain ⟨s1, s2, s3, e1, e2, e3, rfl⟩ := generate_eq_ok e
  have r1 := r.latchH.sav e1
  have r3 := (r1.beat e2).eavAt e3
  have at1 := sav_onTrack (s := s.latchH) (fun hb => { h.onTrack hb with }) e1
  have at2 := beat_onTrack r1.inv at1 e2
  refine advance_inLine r3.inv ?_
  obtain ⟨a, d, v, b, k, rfl⟩ := eavAt_frame e3
  exact fun hb => { at2 hb with }

theorem tickEvents {s t : State} (h : s.InLine) (inv : s.Inv) (e : tickEvents s = .ok t) : t.InLine := by
  rcases tickEvents_eq_ok e with ⟨hd, rfl⟩ | ⟨hq, e⟩ | ⟨-, -, hrun, e⟩ | ⟨-, -, -, rfl⟩
  · exact of_no_stream ((drainReady_iff s).1 hd).2
  · obtain ⟨-, idle, -⟩ := inv.quiesced hq
    rcases cfgLoad_eq_ok e with ⟨-, rfl⟩ | ⟨-, -, rfl⟩ <;> exact of_no_stream idle
  · exact h.generate (inv.runsAt hrun) e
  · exact h

/-- No sub-step of a TICK finds a stream busy at its trigger point (R171). -/
theorem tickEvents_fault {s : State} {c : Fault} (h : s.InLine) (e : Machine.tickEvents s = .error c) :
    c ≠ .dmaOverlap := by
  rintro rfl
  rcases tickEvents_eq_error e with e | e
  · cases cfgLoad_eq_error e
  · rcases generate_eq_error e with e | ⟨_, e⟩ | ⟨_, e⟩
    · rcases sav_eq_error e with ⟨-, heq, hb⟩ | hc
      · exact h.hcount_ne_savCmp hb heq
      · cases hc
    · cases beat_eq_error e
    · rcases eav_eq_error e with hc | hc | hc <;> cases hc

end State.InLine

/-! ### The other operations -/

/-- What a running stream's place in its line is made of. -/
def State.streamPlace (s : State) : Half × Half × Timing × Dma := (s.hcount, s.savCmp, s.t, s.dma)

theorem State.InLine.of_streamPlace {s t : State} (h : s.InLine) (same : t.streamPlace = s.streamPlace) : t.InLine := by
  simp only [State.streamPlace, Prod.mk.injEq] at same
  obtain ⟨hcount, hsav, htiming, hdma⟩ := same
  constructor <;> simp only [hcount, hsav, htiming, hdma]
  · exact h.armed
  · exact h.room
  · exact h.position

/-- Writes that leave the stream's place in its line, or a fault other than DMA_OVERLAP. -/
inductive KeepsStream (s : State) : Except Fault State → Prop
  | ok {t : State} : t.streamPlace = s.streamPlace → KeepsStream s (.ok t)
  | error {c : Fault} : c ≠ .dmaOverlap → KeepsStream s (.error c)

namespace KeepsStream

theorem whenEnabled {b : Bool} {s : State} {body : Except Fault State} (h : KeepsStream s body) :
    KeepsStream s (whenEnabled b s body) := by
  cases b
  · exact .ok rfl
  · exact h

theorem unlessBusy {s u : State} (h : u.streamPlace = s.streamPlace) : KeepsStream s (unlessBusy s u) := by
  refine .ok ?_
  split
  · rfl
  · exact h

theorem copyStep (s : State) : KeepsStream s (copyStep s) := by
  unfold Machine.copyStep
  split
  · split
    · exact .error nofun
    · exact .ok rfl
  · exact .ok rfl

theorem tailStep (s : State) : KeepsStream s (tailStep s) := by
  unfold Machine.tailStep
  split
  · exact .error nofun
  · exact .ok rfl

theorem schedStep (s : State) : KeepsStream s (schedStep s) := by
  unfold Machine.schedStep
  split
  · split
    · exact .error nofun
    · exact .ok rfl
  · split
    · cases e : readNode s s.currentBand.next with
      | ok node => exact .ok rfl
      | error c => exact .error (by rcases readNode_eq_error e with rfl | rfl <;> exact nofun)
    · exact .ok rfl

theorem wb8Step (index : Half) (data : Byte) (s : State) : KeepsStream s (wb8Step index data s) := by
  unfold Machine.wb8Step
  split
  · exact .error nofun
  · exact .ok rfl

theorem wb32Step (windex : BitVec 14) (data : Word) (s : State) : KeepsStream s (wb32Step windex data s) := by
  unfold Machine.wb32Step
  split
  · exact .error nofun
  · exact .ok rfl

theorem respStep (d : Word) (s : State) : KeepsStream s (respStep d s) := by
  unfold Machine.respStep
  split
  · exact .error nofun
  · exact .ok rfl

/-- Outside the TICK and RESET no operation that an agent schedules moves a stream or its line. -/
theorem effect {i : Instr} (s : State) (scheduled : isSubEvent i = false) (htick : i ≠ .tick) (hreset : i ≠ .reset) :
    KeepsStream s (effect i s) := by
  cases i with
  | tick => exact absurd rfl htick
  | reset => exact absurd rfl hreset
  | tickCfgDrain | tickCfgLoad | tickSav | tickBeat | tickEav | tickAdvance | tickSample => cases scheduled
  | druDispatch | druTerm | druHookReq | hookAck => exact whenEnabled (.ok rfl)
  | druCopy => exact whenEnabled (copyStep s)
  | druTail => exact whenEnabled (tailStep s)
  | druSched => exact whenEnabled (schedStep s)
  | rastWb8 index data => exact whenEnabled (wb8Step index data s)
  | rastWb32 windex data => exact whenEnabled (wb32Step windex data s)
  | rastResp d => exact whenEnabled (respStep d s)
  | wrCmd => exact unlessBusy (by split <;> rfl)
  | wrCtrl | wrTLinePixels | wrTSyncPixels | wrTBackPorchPixels | wrTVideoLead | wrTVideoPixels | wrTPolarity
  | wrTVsyncStartLine | wrTVsyncEndLine | wrTVideoStartLine | wrTVideoEndLine | wrTClockConfig =>
    exact unlessBusy rfl
  | _ => exact .ok rfl

end KeepsStream

/-- The writes of an operation that an agent schedules leave every stream in its line. -/
theorem State.InLine.effect {i : Instr} {s t : State} (h : s.InLine) (inv : s.Inv) (scheduled : isSubEvent i = false)
    (hreset : i ≠ .reset) (e : effect i s = .ok t) : t.InLine := by
  by_cases htick : i = .tick
  · subst htick
    obtain ⟨u, hu, e⟩ := bind_eq_ok_iff.1 e
    cases e
    have begun : s.beginTick.InLine := { h with }
    exact { begun.tickEvents inv.beginTick hu with }
  · have keeps := KeepsStream.effect s scheduled htick hreset
    rw [e] at keeps
    cases keeps with
    | ok same => exact h.of_streamPlace same

/-- An operation that an agent schedules finds no stream busy at its trigger point. -/
theorem State.InLine.effect_fault {i : Instr} {s : State} {c : Fault} (h : s.InLine) (scheduled : isSubEvent i = false)
    (hreset : i ≠ .reset) (e : Machine.effect i s = .error c) : c ≠ .dmaOverlap := by
  by_cases htick : i = .tick
  · subst htick
    have begun : s.beginTick.InLine := { h with }
    rcases bind_eq_error_iff.1 e with e | ⟨_, -, e⟩
    · exact begun.tickEvents_fault e
    · cases e
  · have keeps := KeepsStream.effect s scheduled htick hreset
    rw [e] at keeps
    cases keeps with
    | error hc => exact hc

/-- Settles O52: RESET ends every stream, the writes of any other operation leave it in its line, and a fault, which leaves it
where it was, is not DMA_OVERLAP. -/
theorem streamsNeverOverlap : Obligations.StreamsNeverOverlap := by
  unfold Obligations.StreamsNeverOverlap
  intro i s t inv inLine scheduled e
  rcases exec_eq_next e with ⟨-, rfl⟩ | ⟨hreset, hf, he | ⟨c, he, rfl⟩⟩
  · exact ⟨.of_no_stream rfl, nofun⟩
  · have unfaulted : t.fault = none := (effect_sameOutside hreset he).1.trans hf
    exact ⟨inLine.effect inv scheduled hreset he, by rw [unfaulted]; exact nofun⟩
  · have other := inLine.effect_fault scheduled hreset he
    exact ⟨inLine.of_streamPlace rfl, fun h => other (Option.some.inj h)⟩

/-! ### The position of a pixel (R173, R174) -/

/-- A TICK with a stream busy does not trigger another: what it leaves of the stream and the latch is its BEAT's. -/
theorem State.InLine.streaming_tick {s t : State} (h : s.InLine) (inv : s.Inv) (hb : s.dma.busy = true)
    (e : exec .tick s = .next t) (hf : t.fault = none) :
    ∃ u, beat s.beginTick.latchH = .ok u ∧ t.pixLatch = u.pixLatch ∧ t.dma = u.dma := by
  obtain ⟨v, hv, rfl⟩ := exec_tick_eq_next e hf
  rw [tickEvents_eq_generate inv (inv.streaming hb) fun _ => hb] at hv
  obtain ⟨s1, s2, s3, e1, e2, e3, rfl⟩ := generate_eq_ok hv
  have off : sav s.beginTick.hcount s.beginTick.latchH = .ok s.beginTick.latchH :=
    sav_elsewhere (h.hcount_ne_savCmp hb)
  cases off.symm.trans e1
  obtain ⟨a, d, w, b, k, rfl⟩ := eavAt_frame e3
  exact ⟨s2, e2, by simp, by simp⟩

/-- Settles O53, by the three outcomes of BEAT, at the position that the stream's place gives. -/
theorem pixelPosition : Obligations.PixelPosition := by
  unfold Obligations.PixelPosition
  intro s t inv inLine hb e hf
  have position := inLine.position hb
  obtain ⟨hi, hc⟩ := inv.beatIndex hb
  obtain ⟨u, hu, hpix, hdma⟩ := inLine.streaming_tick inv hb e hf
  rcases beat_eq_ok hu with ⟨idle, -⟩ | ⟨-, hd, rfl⟩ | ⟨-, hd, b, hcell, rfl⟩
  · exact absurd (idle.symm.trans hb) Bool.false_ne_true
  · exact ⟨fun _ => hpix, fun hd0 => absurd hd0 hd⟩
  · have lead : s.dma.delay.toNat = 0 := congrArg BitVec.toNat hd
    have hmax := bufBytes_le s.params
    rw [lead, Nat.add_zero] at position
    refine ⟨fun before => absurd before (by omega), fun _ => ⟨s.dma.idx.toNat, position, hi, ?_, ?_, ?_⟩⟩
    · rw [hpix]
      exact hcell
    · rw [hdma]
      exact toNat_add_one (x := s.dma.idx) (by omega)
    · rw [hdma]
      show (beatStream s.dma).busy = true ↔ _
      simp [beatStream_of_busy hb]

end Sys2Proof.Machine
end

section
/-! SUPPORT. The deferred render unit (spec/43_deferred_render.md R189 to R200): which operations move it, and each
step of its flip said once as an equation. -/

namespace Sys2Proof.Machine

/-! ### The enabled step (R189) -/

section Enabled
variable {s : State}

theorem druStepEnabled_of_dispatch (h : dispatchEnabled s = true) : druStepEnabled s = some .druDispatch := by
  obtain ⟨hp, hd⟩ := (dispatchEnabled_iff s).1 h
  rw [druStepEnabled_idle hp, if_pos hd]

theorem druStepEnabled_of_copy (h : copyEnabled s = true) : druStepEnabled s = some .druCopy := by
  obtain ⟨hp, hb⟩ := (copyEnabled_iff s).1 h
  simp [druStepEnabled_copy hp, hb]

theorem druStepEnabled_of_tail (h : tailEnabled s = true) : druStepEnabled s = some .druTail := by
  obtain ⟨hp, hb⟩ := (tailEnabled_iff s).1 h
  simp [druStepEnabled_tail hp, hb]

theorem druStepEnabled_of_term (h : termEnabled s = true) : druStepEnabled s = some .druTerm := by
  obtain ⟨hp, hb⟩ := (termEnabled_iff s).1 h
  simp [druStepEnabled_term hp, hb]

theorem druStepEnabled_of_hookReq (h : hookReqEnabled s = true) : druStepEnabled s = some .druHookReq :=
  druStepEnabled_hook ((hookReqEnabled_iff s).1 h)

theorem druStepEnabled_of_sched (h : schedEnabled s = true) : druStepEnabled s = some .druSched :=
  druStepEnabled_sched ((schedEnabled_iff s).1 h)

/-- The step that a phase of the flip enables waits for the stream to end (R176). -/
theorem idle_of_flipStep {i j : Instr} (h : (if s.dma.busy then none else some j) = some i) :
    s.dma.busy = false ∧ j = i := by simpa using h

/-- A flip step in its own phase, with no stream busy, is the enabled one (R176, R189). -/
theorem druStepEnabled_of_flipPhase {i : Instr} (hb : s.dma.busy = false) (h : FlipPhase i s.dru.phase) :
    druStepEnabled s = some i := by
  rcases h with ⟨rfl, hp⟩ | ⟨rfl, hp⟩ | ⟨rfl, hp⟩
  · exact druStepEnabled_of_copy ((copyEnabled_iff s).2 ⟨hp, hb⟩)
  · exact druStepEnabled_of_tail ((tailEnabled_iff s).2 ⟨hp, hb⟩)
  · exact druStepEnabled_of_term ((termEnabled_iff s).2 ⟨hp, hb⟩)

end Enabled

/-- A guarded operation that does not leave an unfaulted state as it is was enabled. -/
theorem enabled_of_exec_ne {i : Instr} {s : State} {b : Bool} {body : Except Fault State} (hf : s.fault = none)
    (h : exec i s ≠ .next s) (hne : i ≠ .reset) (guarded : effect i s = whenEnabled b s body) : b = true := by
  cases b with
  | true => rfl
  | false => exact absurd (exec_next hf hne guarded) h

/-! ### Which operations move the unit -/

/-- The operations that move the unit: its enabled step, and the two answers it waits for (R189, R200, R215). -/
def MovesDru (s : State) (i : Instr) : Prop :=
  druStepEnabled s = some i ∨ (i = .hookAck ∧ s.hookReq = true)
    ∨ ∃ d, i = .rastResp d ∧ s.dru.phase = .renderWait

theorem tickEvents_dru {s t : State} (e : tickEvents s = .ok t) : t.dru = s.dru := by
  rcases tickEvents_eq_ok e with ⟨-, rfl⟩ | ⟨-, e⟩ | ⟨-, -, -, e⟩ | ⟨-, -, -, rfl⟩
  · rfl
  · rcases cfgLoad_eq_ok e with ⟨-, rfl⟩ | ⟨-, -, rfl⟩ <;> rfl
  · obtain ⟨a, d, v, b, k, m, p, rfl⟩ := generate_frame e
    exact advance_dru _ _
  · rfl

/-- No other operation moves the unit or writes its latches. -/
theorem effect_dru {i : Instr} {s t : State} (hne : i ≠ .reset) (e : effect i s = .ok t) :
    t.dru = s.dru ∨ MovesDru s i := by
  have step {b : Bool} {body : Except Fault State} (e : whenEnabled b s body = .ok t)
      (moves : b = true → MovesDru s i) : t.dru = s.dru ∨ MovesDru s i :=
    whenEnabled_induction (P := fun t => t.dru = s.dru ∨ MovesDru s i) e (.inl rfl) fun hb _ => .inr (moves hb)
  have guarded {b : Bool} {body : Except Fault State} (e : whenEnabled b s body = .ok t)
      (keeps : body = .ok t → t.dru = s.dru) : t.dru = s.dru ∨ MovesDru s i :=
    .inl (whenEnabled_induction (P := fun t => t.dru = s.dru) e rfl fun _ => keeps)
  have masked {u : State} (e : unlessBusy s u = .ok t) (keeps : u.dru = s.dru) : t.dru = s.dru ∨ MovesDru s i :=
    .inl (unlessBusy_induction (P := fun t => t.dru = s.dru) e rfl fun _ => keeps)
  cases i with
  | reset => exact absurd rfl hne
  | tick =>
    obtain ⟨u, hu, e⟩ := bind_eq_ok_iff.1 e
    cases e
    have same : u.dru = s.dru := tickEvents_dru (s := s.beginTick) hu
    exact .inl same
  | tickCfgLoad =>
    exact guarded e fun e => by rcases cfgLoad_eq_ok e with ⟨-, rfl⟩ | ⟨-, -, rfl⟩ <;> rfl
  | tickSav => exact guarded e fun e => by obtain ⟨m, rfl⟩ := sav_frame e; rfl
  | tickBeat => exact guarded e fun e => by obtain ⟨m, p, rfl⟩ := beat_frame e; rfl
  | tickEav => exact guarded e fun e => by obtain ⟨a, d, v, b, k, rfl⟩ := eavAt_frame e; rfl
  | tickCfgDrain => exact guarded e fun e => by cases e; rfl
  | tickAdvance => exact guarded e fun e => by cases e; exact advance_dru _ _
  | druDispatch => exact step e fun hb => .inl (druStepEnabled_of_dispatch hb)
  | druCopy => exact step e fun hb => .inl (druStepEnabled_of_copy hb)
  | druTail => exact step e fun hb => .inl (druStepEnabled_of_tail hb)
  | druTerm => exact step e fun hb => .inl (druStepEnabled_of_term hb)
  | druHookReq => exact step e fun hb => .inl (druStepEnabled_of_hookReq hb)
  | druSched => exact step e fun hb => .inl (druStepEnabled_of_sched hb)
  | hookAck => exact step e fun hb => .inr (.inl ⟨rfl, hb⟩)
  | rastResp d => exact step e fun hb => .inr (.inr ⟨d, rfl, (wbGrant_iff s).1 hb⟩)
  | rastWb8 => exact guarded e fun e => by obtain ⟨-, rfl⟩ := wb8Step_eq_ok e; rfl
  | rastWb32 => exact guarded e fun e => by obtain ⟨-, rfl⟩ := wb32Step_eq_ok e; rfl
  | wrCmd => exact masked e (by split <;> rfl)
  | wrCtrl | wrTLinePixels | wrTSyncPixels | wrTBackPorchPixels | wrTVideoLead | wrTVideoPixels | wrTPolarity
  | wrTVsyncStartLine | wrTVsyncEndLine | wrTVideoStartLine | wrTVideoEndLine | wrTClockConfig => exact masked e rfl
  | _ => cases e; exact .inl rfl

/-! ### Words of the line buffers (R63) -/

/-- A buffer word that is read holds the four bytes of its cells. -/
theorem read_of_readWord {m : Cells} {k : ℕ} {w : Word} (h : readWord m k = some w) {j : ℕ} (hj : j / 4 = k) :
    m.read j = some (byteOf w (j % 4)) := by
  obtain ⟨h0, h1, h2, h3⟩ := (readWord_eq_some_iff m k w).1 h
  have place : j = 4 * k + j % 4 := by omega
  have lane : j % 4 < 4 := Nat.mod_lt _ (by omega)
  generalize j % 4 = r at place lane
  subst place
  interval_cases r
  · exact h0
  · exact h1
  · exact h2
  · exact h3

/-- A buffer word with an unwritten byte is not read. -/
theorem readWord_unwritten {m : Cells} {k j : ℕ} (hj : j / 4 = k) (h : m.read j = none) : readWord m k = none := by
  cases e : readWord m k with
  | none => rfl
  | some w => exact absurd ((read_of_readWord e hj).symm.trans h) nofun

/-- A buffer word with its four bytes written is read. -/
theorem readWord_written {m : Cells} {k : ℕ} (h : ∀ j, j / 4 = k → m.read j ≠ none) : ∃ w, readWord m k = some w := by
  have byte (r : ℕ) (hr : r < 4) : ∃ b, m.read (4 * k + r) = some b := Option.ne_none_iff_exists'.1 (h _ (by omega))
  obtain ⟨b0, h0⟩ := byte 0 (by omega)
  obtain ⟨b1, h1⟩ := byte 1 (by omega)
  obtain ⟨b2, h2⟩ := byte 2 (by omega)
  obtain ⟨b3, h3⟩ := byte 3 (by omega)
  rw [Nat.add_zero] at h0
  exact ⟨wordOf b0 b1 b2 b3, by simp only [readWord, h0, h1, h2, h3]⟩

/-- A word read from one buffer and written to another is its four cells copied. -/
theorem read_writeWord_readWord {m n : Cells} {k : ℕ} {w : Word} (h : readWord m k = some w) (j : ℕ) :
    (writeWord n k w).read j = if j / 4 = k then m.read j else n.read j := by
  rw [read_writeWord]
  split
  · rename_i hj
    exact (read_of_readWord h hj).symm
  · rfl

/-! ### The steps of a flip, enabled (R190 to R196) -/

section Steps
variable {s : State}

theorem effect_druDispatch (hp : s.dru.phase = .idle) (hd : s.deferPending = true) :
    effect .druDispatch s = .ok (dispatch s) := by
  rw [effect, (dispatchEnabled_iff s).2 ⟨hp, hd⟩, whenEnabled_true]

theorem effect_druCopy (hp : s.dru.phase = .copy) (hb : s.dma.busy = false) : effect .druCopy s = copyStep s := by
  rw [effect, (copyEnabled_iff s).2 ⟨hp, hb⟩, whenEnabled_true]

theorem effect_druTail (hp : s.dru.phase = .tail) (hb : s.dma.busy = false) : effect .druTail s = tailStep s := by
  rw [effect, (tailEnabled_iff s).2 ⟨hp, hb⟩, whenEnabled_true]

theorem effect_druTerm (hp : s.dru.phase = .term) (hb : s.dma.busy = false) :
    effect .druTerm s = .ok (termStep s) := by
  rw [effect, (termEnabled_iff s).2 ⟨hp, hb⟩, whenEnabled_true]

theorem copyStep_ends (h : copyWords s.dru ≤ s.dru.copyIdx.toNat) : copyStep s = .ok (s.toPhase .tail) := by
  rw [copyStep, if_neg (by omega)]

theorem copyStep_unwritten (h : s.dru.copyIdx.toNat < copyWords s.dru)
    (hw : readWord s.wb s.dru.copyIdx.toNat = none) : copyStep s = .error .unwrittenRead := by
  rw [copyStep, if_pos h, hw]

theorem copyStep_moves (h : s.dru.copyIdx.toNat < copyWords s.dru) {w : Word}
    (hw : readWord s.wb s.dru.copyIdx.toNat = some w) :
    copyStep s = .ok { s with
      sb := writeWord s.sb s.dru.copyIdx.toNat w, dru := { s.dru with copyIdx := s.dru.copyIdx + 1 } } := by
  rw [copyStep, if_pos h, hw]

/-- The cells from the last whole word on end at the latched length (R194). -/
theorem copyWords_add_rest (d : Dru) :
    4 * copyWords d + (d.copyLen.toNat - 4 * copyWords d) = d.copyLen.toNat := by
  unfold copyWords
  omega

theorem tailStep_unwritten
    (h : ∃ j, 4 * copyWords s.dru ≤ j ∧ j < s.dru.copyLen.toNat ∧ s.wb.read j = none) :
    tailStep s = .error .unwrittenRead := by
  obtain ⟨j, hlo, hhi, hj⟩ := h
  unfold tailStep
  split
  · rfl
  · rename_i sb e
    have written := copyBytes_isSome_iff.1 (Option.isSome_of_eq_some e) j hlo (by rwa [copyWords_add_rest])
    rw [hj] at written
    cases written

/-- What TAIL's writes leave of SB, at every index (R194). -/
theorem tailStep_copies {t : State} (e : tailStep s = .ok t) :
    ∃ sb, t = { s.toPhase .term with sb := sb }
      ∧ ∀ j, sb.read j = if 4 * copyWords s.dru ≤ j ∧ j < s.dru.copyLen.toNat then s.wb.read j else s.sb.read j := by
  obtain ⟨sb, copied, rfl⟩ := tailStep_eq_ok e
  refine ⟨sb, rfl, fun j => ?_⟩
  rw [read_copyBytes copied j, copyWords_add_rest]

theorem tailStep_written
    (h : ∀ j, 4 * copyWords s.dru ≤ j → j < s.dru.copyLen.toNat → s.wb.read j ≠ none) :
    ∃ t, tailStep s = .ok t := by
  have written : (copyBytes s.wb (s.dru.copyLen.toNat - 4 * copyWords s.dru) (4 * copyWords s.dru) s.sb).isSome := by
    refine copyBytes_isSome_iff.2 fun j hlo hhi => Option.isSome_iff_ne_none.2 (h j hlo ?_)
    rwa [copyWords_add_rest] at hhi
  obtain ⟨sb, e⟩ := Option.isSome_iff_exists.1 written
  exact ⟨_, by rw [tailStep, e]⟩

/-- The transfer count has room for the longest line and its terminator (R37, R196). -/
theorem toNat_termStep_dmaCount (s : State) : (termStep s).dmaCount.toNat = s.dru.copyLen.toNat + 1 := by
  have := s.dru.copyLen.isLt
  show (BitVec.ofNat 17 (s.dru.copyLen.toNat + 1)).toNat = _
  rw [BitVec.toNat_ofNat, Nat.mod_eq_of_lt (by omega)]

theorem read_termStep_sb (s : State) (j : ℕ) :
    (termStep s).sb.read j = if j = s.dru.copyLen.toNat then some 0#8 else s.sb.read j := by
  show (s.sb.write s.dru.copyLen.toNat 0#8).read j = _
  simp only [Cells.read_write, eq_comm]

end Steps

end Sys2Proof.Machine
end

section
/-! SUPPORT. The statements of spec/43_deferred_render.md: the steps of the deferred render unit one by one (R189 to
R200), and the flip as a whole (R197). -/

namespace Sys2Proof.Machine

/-! ### At most one step (R189) -/

/-- Settles O9: a DRU operation that changes the state is the enabled one. -/
theorem atMostOneDruStepIsEnabled : Obligations.AtMostOneDruStepIsEnabled := by
  unfold Obligations.AtMostOneDruStepIsEnabled
  intro s i j hf hi hj changesI changesJ
  have enabled {i : Instr} (hi : i ∈ [Instr.druDispatch, .druCopy, .druTail, .druTerm, .druHookReq, .druSched])
      (h : exec i s ≠ .next s) : druStepEnabled s = some i := by
    simp only [List.mem_cons, List.not_mem_nil, or_false] at hi
    rcases hi with rfl | rfl | rfl | rfl | rfl | rfl
    · exact druStepEnabled_of_dispatch (enabled_of_exec_ne hf h nofun rfl)
    · exact druStepEnabled_of_copy (enabled_of_exec_ne hf h nofun rfl)
    · exact druStepEnabled_of_tail (enabled_of_exec_ne hf h nofun rfl)
    · exact druStepEnabled_of_term (enabled_of_exec_ne hf h nofun rfl)
    · exact druStepEnabled_of_hookReq (enabled_of_exec_ne hf h nofun rfl)
    · exact druStepEnabled_of_sched (enabled_of_exec_ne hf h nofun rfl)
  exact Option.some.inj ((enabled hi changesI).symm.trans (enabled hj changesJ))

/-! ### The steps (R190 to R200) -/

/-- Settles O30: the enabled DISPATCH is its writes. -/
theorem dispatchRule : Obligations.DispatchRule := by
  unfold Obligations.DispatchRule
  intro s hf hp hd
  exact exec_next hf nofun (effect_druDispatch hp hd)

/-- Settles O31, by the three outcomes of COPY; a word read and written is its four cells copied. -/
theorem copyRule : Obligations.CopyRule := by
  unfold Obligations.CopyRule
  intro s hf hp hb
  have enabled := effect_druCopy hp hb
  refine ⟨fun done => ?_, fun more => ⟨fun ⟨j, hj, hcell⟩ => ?_, fun written => ?_⟩⟩
  · exact exec_next hf nofun (enabled.trans (copyStep_ends done))
  · exact exec_raise hf nofun (enabled.trans (copyStep_unwritten more (readWord_unwritten hj hcell)))
  · obtain ⟨w, hw⟩ := readWord_written written
    exact ⟨_, exec_next hf nofun (enabled.trans (copyStep_moves more hw)), read_writeWord_readWord hw⟩

/-- Settles O32, by the two outcomes of TAIL. -/
theorem tailRule : Obligations.TailRule := by
  unfold Obligations.TailRule
  intro s hf hp hb
  have enabled := effect_druTail hp hb
  refine ⟨fun unwritten => ?_, fun written => ?_⟩
  · exact exec_raise hf nofun (enabled.trans (tailStep_unwritten unwritten))
  · obtain ⟨t, e⟩ := tailStep_written written
    obtain ⟨sb, rfl, hsb⟩ := tailStep_copies e
    exact ⟨sb, exec_next hf nofun (enabled.trans e), hsb⟩

/-- Settles O33: the enabled TERM is its writes, read at every index. -/
theorem termRule : Obligations.TermRule := by
  unfold Obligations.TermRule
  intro s hf hp hb
  exact ⟨_, _, exec_next hf nofun (effect_druTerm hp hb), toNat_termStep_dmaCount s, read_termStep_sb s⟩

theorem visible_iff (x : Timing) (n : Half) :
    visible x n = true ↔ x.videoStartLine.toNat ≤ n.toNat ∧ n.toNat < x.videoEndLine.toNat := by simp [visible]

/-- Settles O34, by the guard of each of the two operations. -/
theorem hookHandshakeRule : Obligations.HookHandshakeRule := by
  unfold Obligations.HookHandshakeRule
  intro s hf
  refine ⟨fun hp => ?_, fun hr => ?_, fun hr => ?_⟩
  · exact exec_next hf nofun (by rw [effect, (hookReqEnabled_iff s).2 hp, whenEnabled_true]; rfl)
  · exact exec_next hf nofun (by rw [effect, hr, whenEnabled_false])
  · refine exec_next hf nofun ?_
    simp only [effect, hr, whenEnabled_true, hookAckStep, visible_iff]
    rfl

/-! ### The flip (R197) -/

/-- Cells of `SB` that are copied: `SB` is `b` with the first `k` cells of `w`. -/
def CopiedTo (sb w b : Cells) (k : ℕ) : Prop := ∀ j, sb.read j = if j < k then w.read j else b.read j

theorem CopiedTo.zero (w b : Cells) : CopiedTo b w b 0 := fun j => by rw [if_neg (Nat.not_lt_zero j)]

/-- The cells from `k` up to `m` copied too. -/
theorem CopiedTo.extend {sb sb' w b : Cells} {k m : ℕ} (h : CopiedTo sb w b k) (hkm : k ≤ m)
    (cells : ∀ j, sb'.read j = if k ≤ j ∧ j < m then w.read j else sb.read j) : CopiedTo sb' w b m := by
  intro j
  rw [cells j, h j]
  by_cases before : j < k
  · rw [if_neg (by omega), if_pos before, if_pos (by omega)]
  · rw [if_neg before]
    exact if_congr (by omega) rfl rfl

/-- A rendering DISPATCH begins a flip, with nothing copied (R190). -/
theorem dispatch_flipping {s : State} (renders : s.display.renders = true) :
    (dispatch s).Flipping s.wb s.sb s.workShape.length where
  length := rfl
  source := rfl
  progress := .inl ⟨if_pos renders, Nat.zero_le _, CopiedTo.zero s.wb s.sb⟩

section Flip
variable {s t : State} {w b : Cells} {n : Half}

/-- COPY moves the next word, or leaves the rest to TAIL. -/
theorem copyStep_flipping (hp : s.dru.phase = .copy) (hi : s.dru.copyIdx.toNat ≤ s.dru.copyLen.toNat / 4)
    (done : CopiedTo s.sb s.wb b (4 * s.dru.copyIdx.toNat)) (e : copyStep s = .ok t) :
    t.Flipping s.wb b s.dru.copyLen := by
  rcases copyStep_eq_ok e with ⟨more, v, hv, rfl⟩ | ⟨last, rfl⟩
  · have := s.dru.copyLen.isLt
    replace more : s.dru.copyIdx.toNat < s.dru.copyLen.toNat / 4 := more
    have next : (s.dru.copyIdx + 1).toNat = s.dru.copyIdx.toNat + 1 := toNat_add_one (by omega)
    have copied : CopiedTo (writeWord s.sb s.dru.copyIdx.toNat v) s.wb b (4 * (s.dru.copyIdx + 1).toNat) := by
      refine done.extend (by omega) fun j => ?_
      rw [read_writeWord_readWord hv j]
      exact if_congr (by omega) rfl rfl
    exact ⟨rfl, rfl, .inl ⟨hp, next ▸ more, copied⟩⟩
  · have all : s.dru.copyIdx.toNat = s.dru.copyLen.toNat / 4 := le_antisymm hi last
    exact ⟨rfl, rfl, .inr (.inl ⟨rfl, all ▸ done⟩)⟩

/-- TAIL moves the bytes past the last whole word. -/
theorem tailStep_flipping (done : CopiedTo s.sb s.wb b (4 * (s.dru.copyLen.toNat / 4))) (e : tailStep s = .ok t) :
    t.Flipping s.wb b s.dru.copyLen := by
  obtain ⟨sb, rfl, cells⟩ := tailStep_copies e
  exact ⟨rfl, rfl, .inr (.inr ⟨rfl, done.extend (by omega) cells⟩)⟩

/-- TERM completes the flip. -/
theorem termStep_flipped (done : CopiedTo s.sb s.wb b s.dru.copyLen.toNat) :
    (termStep s).Flipped s.wb b s.dru.copyLen := by
  refine ⟨rfl, fun j => ?_, toNat_termStep_dmaCount s⟩
  rw [read_termStep_sb, done j]
  by_cases at_end : j = s.dru.copyLen.toNat
  · rw [if_pos at_end, if_neg (by omega), if_pos at_end]
  · rw [if_neg at_end, if_neg at_end]

namespace State.Flipping

/-- The enabled step of a flip carries it on, or completes it. -/
theorem enabledStep {i : Instr} (h : s.Flipping w b n) (enabled : druStepEnabled s = some i)
    (e : effect i s = .ok t) : t.Flipping w b n ∨ (i = .druTerm ∧ t.Flipped w b n) := by
  obtain ⟨rfl, rfl, ⟨hp, hi, done⟩ | ⟨hp, done⟩ | ⟨hp, done⟩⟩ := h
  · obtain ⟨idle, rfl⟩ := idle_of_flipStep ((druStepEnabled_copy hp).symm.trans enabled)
    exact .inl (copyStep_flipping hp hi done ((effect_druCopy hp idle).symm.trans e))
  · obtain ⟨idle, rfl⟩ := idle_of_flipStep ((druStepEnabled_tail hp).symm.trans enabled)
    exact .inl (tailStep_flipping done ((effect_druTail hp idle).symm.trans e))
  · obtain ⟨idle, rfl⟩ := idle_of_flipStep ((druStepEnabled_term hp).symm.trans enabled)
    cases (effect_druTerm hp idle).symm.trans e
    exact .inr ⟨rfl, termStep_flipped done⟩

/-- A flip waits for no request, no hook and no rasterizer (R189). -/
theorem phase_ne (h : s.Flipping w b n) :
    s.dru.phase ≠ .idle ∧ s.dru.phase ≠ .hookWait ∧ s.dru.phase ≠ .renderWait := by
  rcases h.progress with ⟨hp, -⟩ | ⟨hp, -⟩ | ⟨hp, -⟩ <;> simp [hp]

theorem of_same (h : s.Flipping w b n) (dru : t.dru = s.dru) (wb : t.wb = s.wb) (sb : t.sb = s.sb) :
    t.Flipping w b n := by
  obtain ⟨length, source, progress⟩ := h
  exact ⟨dru ▸ length, wb.trans source, by rwa [dru, sb]⟩

/-- Any other operation leaves the flip where it is: CFG_LOAD waits for an idle unit, a rasterizer write is dropped
without a grant, and no hook is out for HOOK.ACK to answer (R197). -/
theorem otherOperation {i : Instr} (h : s.Flipping w b n) (inv : s.Inv) (hne : i ≠ .reset)
    (other : druStepEnabled s ≠ some i) (e : effect i s = .ok t) : t.Flipping w b n := by
  obtain ⟨not_idle, not_hookWait, not_renderWait⟩ := h.phase_ne
  have writes := effect_bufferWrites hne e
  refine h.of_same ?_ ?_ ?_
  · rcases effect_dru hne e with same | step | ⟨-, hr⟩ | ⟨-, -, hp⟩
    · exact same
    · exact absurd step other
    · exact absurd (inv.hook.1 hr) not_hookWait
    · exact absurd hp not_renderWait
  · rcases writes.wb_cases with same | ⟨hp, -⟩ | ⟨-, hp, -⟩
    · exact same
    · exact absurd hp not_renderWait
    · exact absurd hp not_idle
  · rcases writes.sb_cases with same | ⟨hb, flip⟩ | ⟨-, hp, -⟩
    · exact same
    · exact absurd (druStepEnabled_of_flipPhase hb flip) other
    · exact absurd hp not_idle

end State.Flipping

end Flip

/-- Settles O54: DISPATCH begins the flip, its enabled step carries it on, any other operation or a fault leaves it. -/
theorem flipIsExact : Obligations.FlipIsExact := by
  unfold Obligations.FlipIsExact
  refine ⟨fun s hf hp hd renders => ?_, fun i s t w b n inv flip hne e => ?_⟩
  · exact ⟨_, exec_next hf nofun (effect_druDispatch hp hd), dispatch_flipping renders⟩
  · rcases exec_eq_next e with ⟨hreset, -⟩ | ⟨-, -, e | ⟨c, -, rfl⟩⟩
    · exact absurd hreset hne
    · by_cases enabled : druStepEnabled s = some i
      · exact flip.enabledStep enabled e
      · exact .inl (flip.otherOperation inv hne enabled e)
    · exact .inl (flip.of_same rfl rfl rfl)

end Sys2Proof.Machine
end

section
/-! SUPPORT. The band scheduler and the rasterizer port (spec/44_band_scheduler.md R210 to R215): each outcome of SCHED, of the
two buffer writes and of the response said once as an equation. -/

namespace Sys2Proof.Machine

/-! ### SCHED (R210 to R212) -/

section Scheduling
variable {s : State}

theorem effect_druSched (hp : s.dru.phase = .sched) : effect .druSched s = schedStep s := by
  rw [effect, (schedEnabled_iff s).2 hp, whenEnabled_true]

theorem schedStep_nullToken (hc : s.currentBand.count ≠ 0) (hr : s.currentBand.rast = 0) :
    schedStep s = .error .nullRasterizer := by
  rw [schedStep, if_pos hc, if_pos hr]

theorem schedStep_requests (hc : s.currentBand.count ≠ 0) (hr : s.currentBand.rast ≠ 0) :
    schedStep s = .ok (requestLine s) := by
  rw [schedStep, if_pos hc, if_neg hr]

theorem schedStep_lastBand (hc : s.currentBand.count = 0) (hn : s.currentBand.next = 0) :
    schedStep s = .ok (s.toPhase .idle) := by
  rw [schedStep, if_neg (not_not.2 hc), if_neg (not_not.2 hn)]

/-- A used-up band with a next one is left to the node read (R211). -/
theorem schedStep_reseeds (hc : s.currentBand.count = 0) (hn : s.currentBand.next ≠ 0) :
    schedStep s = (readNode s s.currentBand.next).bind fun node => .ok { s with currentBand := node } := by
  rw [schedStep, if_neg (not_not.2 hc), if_pos hn]

/-- A fault of the node read is SCHED's. -/
theorem schedStep_faults {c : Fault} (hc : s.currentBand.count = 0) (hn : s.currentBand.next ≠ 0)
    (h : readNode s s.currentBand.next = .error c) : schedStep s = .error c := by
  rw [schedStep_reseeds hc hn, h, error_bind]

theorem schedStep_takes {node : Band} (hc : s.currentBand.count = 0) (hn : s.currentBand.next ≠ 0)
    (h : readNode s s.currentBand.next = .ok node) : schedStep s = .ok { s with currentBand := node } := by
  rw [schedStep_reseeds hc hn, h, ok_bind]

end Scheduling

theorem ne_zero_of_misaligned {p : Word} (h : p.toNat % 4 ≠ 0) : p ≠ 0 := by
  rintro rfl
  exact h rfl

/-! ### The grant (R214, R215) -/

theorem wbGrant_false_iff (s : State) : wbGrant s = false ↔ s.dru.phase ≠ .renderWait := by
  rw [← Bool.not_eq_true, wbGrant_iff]

section Port
variable {s : State}

/-- An operation of the rasterizer is ignored while the grant is 0. -/
theorem exec_ungranted {i : Instr} {body : Except Fault State} (hf : s.fault = none) (hne : i ≠ .reset)
    (guarded : effect i s = whenEnabled (wbGrant s) s body) (hp : s.dru.phase ≠ .renderWait) :
    exec i s = .next s :=
  exec_next hf hne (by rw [guarded, (wbGrant_false_iff s).2 hp, whenEnabled_false])

/-- An operation of the rasterizer is its writes while the grant is 1. -/
theorem whenEnabled_granted (hp : s.dru.phase = .renderWait) (body : Except Fault State) :
    whenEnabled (wbGrant s) s body = body := by
  rw [(wbGrant_iff s).2 hp, whenEnabled_true]

/-! ### Buffer writes (R214) -/

theorem wb8Step_outside {index : Half} (data : Byte) (h : s.params.bufBytes ≤ index.toNat) :
    wb8Step index data s = .error .wbRange := if_pos h

theorem wb8Step_inside {index : Half} (data : Byte) (h : index.toNat < s.params.bufBytes) :
    wb8Step index data s = .ok { s with wb := s.wb.write index.toNat data } := if_neg (Nat.not_le.2 h)

theorem wb32Step_outside {windex : BitVec 14} (data : Word) (h : s.params.bufBytes ≤ 4 * windex.toNat + 3) :
    wb32Step windex data s = .error .wbRange := if_pos h

theorem wb32Step_inside {windex : BitVec 14} (data : Word) (h : 4 * windex.toNat + 3 < s.params.bufBytes) :
    wb32Step windex data s = .ok { s with wb := writeWord s.wb windex.toNat data } := if_neg (Nat.not_le.2 h)

/-! ### The response (R215) -/

theorem respStep_tooLong {d : Word} (h : s.params.bufBytes - 1 < (responseShape d).length.toNat) :
    respStep d s = .error .shapeLength := if_pos h

theorem respStep_shapes {d : Word} (h : (responseShape d).length.toNat ≤ s.params.bufBytes - 1) :
    respStep d s = .ok { s.toPhase .idle with workShape := responseShape d } := if_neg (Nat.not_lt.2 h)

end Port

end Sys2Proof.Machine
end

section
/-! SUPPORT. The statements of spec/44_band_scheduler.md: SCHED (R210 to R212), the rasterizer's writes (R214) and its response
(R215). -/

namespace Sys2Proof.Machine

/-- Settles O35, by the outcomes of SCHED, and of the node read where the band is used up. -/
theorem schedRule : Obligations.SchedRule := by
  unfold Obligations.SchedRule
  intro s hf hp
  have enabled := effect_druSched hp
  refine ⟨fun hc hr => ?_, fun hc hr => ?_, fun hc hn => ?_, fun hc odd => ?_,
    fun hc hn aligned => ⟨fun ⟨k, hk, unmapped⟩ => ?_, fun mapped => ?_⟩⟩
  · exact exec_raise hf nofun (enabled.trans (schedStep_nullToken hc hr))
  · exact exec_next hf nofun (enabled.trans (schedStep_requests hc hr))
  · exact exec_next hf nofun (enabled.trans (schedStep_lastBand hc hn))
  · have fault := schedStep_faults hc (ne_zero_of_misaligned odd) (readNode_misaligned odd)
    exact exec_raise hf nofun (enabled.trans fault)
  · have fault := schedStep_faults hc hn (readNode_unmapped aligned hk unmapped)
    exact exec_raise hf nofun (enabled.trans fault)
  · exact exec_next hf nofun (enabled.trans (schedStep_takes hc hn (readNode_mapped aligned mapped)))

/-- Settles O36, by the grant and the range check; a word written is its four bytes, lowest first. -/
theorem rasterizerWriteRule : Obligations.RasterizerWriteRule := by
  unfold Obligations.RasterizerWriteRule
  intro s hf
  refine ⟨fun hp => ⟨fun _ _ => exec_ungranted hf nofun rfl hp, fun _ _ => exec_ungranted hf nofun rfl hp⟩,
    fun hp => ⟨fun index data => ⟨fun outside => ?_, fun inside => ?_⟩,
      fun windex data => ⟨fun outside => ?_, fun inside => ?_⟩⟩⟩
  · exact exec_raise hf nofun ((whenEnabled_granted hp _).trans (wb8Step_outside data outside))
  · refine ⟨_, exec_next hf nofun ((whenEnabled_granted hp _).trans (wb8Step_inside data inside)), fun j => ?_⟩
    simp only [Cells.read_write, eq_comm]
  · exact exec_raise hf nofun ((whenEnabled_granted hp _).trans (wb32Step_outside data outside))
  · exact ⟨_, exec_next hf nofun ((whenEnabled_granted hp _).trans (wb32Step_inside data inside)),
      read_writeWord s.wb windex.toNat data⟩

/-- Settles O37, by the grant and the length check. -/
theorem rasterizerResponseRule : Obligations.RasterizerResponseRule := by
  unfold Obligations.RasterizerResponseRule
  intro s d hf
  refine ⟨exec_ungranted hf nofun rfl, fun hp => ⟨fun tooLong => ?_, fun fits => ?_⟩⟩
  · exact exec_raise hf nofun ((whenEnabled_granted hp _).trans (respStep_tooLong tooLong))
  · exact exec_next hf nofun ((whenEnabled_granted hp _).trans (respStep_shapes fits))

end Sys2Proof.Machine
end

section
/-! SUPPORT. The register words of spec/30_encoding.md as the numbers their layouts give; what a write that
CONFIGURE drops comes to (spec/45_host_interface.md R231 to R234); and the writes of the two configuration sub-events alone
(R237, R238). -/

namespace Sys2Proof.Machine

/-! ### Register words (R91, R93, R95, R96) -/

/-- A word of two one-bit fields: bit 0 counts 1, bit 1 counts 2. -/
theorem twoFlags_eq (b0 b1 : Bool) :
    0#30 ++ BitVec.ofBool b1 ++ BitVec.ofBool b0 = BitVec.ofNat 32 (b0.toNat + 2 * b1.toNat) := by
  cases b0 <;> cases b1 <;> rfl

theorem getLsbD_twoFlags (b0 b1 : Bool) : (0#30 ++ BitVec.ofBool b1 ++ BitVec.ofBool b0).getLsbD 0 = b0
    ∧ (0#30 ++ BitVec.ofBool b1 ++ BitVec.ofBool b0).getLsbD 1 = b1 := by
  cases b0 <;> cases b1 <;> exact ⟨rfl, rfl⟩

theorem ctrlWord_eq (s : State) : ctrlWord s = BitVec.ofNat 32 (s.videoEn.toNat + 2 * s.syncEn.toNat) :=
  twoFlags_eq _ _

theorem polarityWord_eq (x : Timing) : polarityWord x = BitVec.ofNat 32 (x.hpol.toNat + 2 * x.vpol.toNat) :=
  twoFlags_eq _ _

theorem lineWord_eq (s : State) : lineWord s = BitVec.ofNat 32 (s.currentLine.toNat + 65536 * s.hcount.toNat) := by
  have fits : s.currentLine.toNat < 2 ^ 16 := s.currentLine.isLt
  apply BitVec.eq_of_toNat_eq
  rw [lineWord, BitVec.toNat_append, ← Nat.shiftLeft_add_eq_or_of_lt fits, Nat.shiftLeft_eq, BitVec.toNat_ofNat]
  omega

theorem timingWord_eq (f : Half) : timingWord f = f.zeroExtend 32 :=
  (BitVec.setWidth_eq_append (by decide)).symm

/-- A CMD write's code is its value modulo 16 (R98). -/
theorem cmdCode_eq_one_iff (v : Word) : cmdCode v = 1#4 ↔ v.toNat % 16 = 1 := by
  rw [← BitVec.toNat_inj, cmdCode, BitVec.extractLsb'_toNat, Nat.shiftRight_zero]
  rfl

/-! ### Writes that CONFIGURE drops (R231, R233, R234) -/

theorem cfgBusy_iff (s : State) : cfgBusy s = true ↔ s.cfgPhase ≠ .idle := bne_iff_ne

/-- Such a write takes effect exactly while no CONFIGURE runs. -/
theorem exec_unlessBusy {i : Instr} {s t : State} (hf : s.fault = none) (hne : i ≠ .reset)
    (e : effect i s = unlessBusy s t) : exec i s = .next (if s.cfgPhase = .idle then t else s) := by
  rw [exec_next hf hne e]
  by_cases idle : s.cfgPhase = .idle
  · rw [if_pos idle, if_neg (by simp [cfgBusy_iff, idle])]
  · rw [if_neg idle, if_pos ((cfgBusy_iff s).2 idle)]

/-! ### The configuration sub-events alone (R237, R238) -/

theorem effect_tickCfgDrain (s : State) :
    effect .tickCfgDrain s = .ok (if s.cfgPhase = .drain ∧ s.dma.busy = false then drainHalt s else s) := by
  simp only [effect, whenEnabled, drainReady_iff]
  split <;> rfl

/-- In QUIESCE the load sub-event is CFG_LOAD. -/
theorem effect_tickCfgLoad_quiesce {s : State} (hq : s.cfgPhase = .quiesce) : effect .tickCfgLoad s = cfgLoad s := by
  simp only [effect, hq, beq_self_eq_true, whenEnabled_true]

/-- Outside QUIESCE, or with deferred work, the load sub-event writes nothing. -/
theorem effect_tickCfgLoad_waiting {s : State} (h : s.cfgPhase ≠ .quiesce ∨ loadReady s = false) :
    effect .tickCfgLoad s = .ok s := by
  by_cases hq : s.cfgPhase = .quiesce
  · exact (effect_tickCfgLoad_quiesce hq).trans (cfgLoad_waiting (h.resolve_left (not_not_intro hq)))
  · simp only [effect, beq_eq_false_iff_ne.2 hq, whenEnabled_false]

end Sys2Proof.Machine
end

section
/-! SUPPORT. The statements of spec/45_host_interface.md about the block: the register accesses (R231 to R236), the two
configuration sub-events (R237, R238) and well-formed timings (R239). -/

namespace Sys2Proof.Machine

/-- Settles O38: the write is one that CONFIGURE drops. -/
theorem writeCtrlRule : Obligations.WriteCtrlRule := by
  unfold Obligations.WriteCtrlRule
  intro s v hf
  exact exec_unlessBusy hf nofun rfl

/-- Settles O39: the write asks for no phase. -/
theorem writeBandHeadRule : Obligations.WriteBandHeadRule := by
  unfold Obligations.WriteBandHeadRule
  intro s v hf
  exact exec_next hf nofun rfl

/-- Settles O40: each of the eleven writes is one that CONFIGURE drops. -/
theorem writeTimingRule : Obligations.WriteTimingRule := by
  unfold Obligations.WriteTimingRule
  intro s v hf field written
  refine ⟨?_, ?_, ?_, ?_, ?_, ?_, ?_, ?_, ?_, ?_, ?_⟩ <;> exact exec_unlessBusy hf nofun rfl

/-- Settles O41: the write is one that CONFIGURE drops, and its code picks what is written. -/
theorem writeCmdRule : Obligations.WriteCmdRule := by
  unfold Obligations.WriteCmdRule
  intro s v hf
  simp only [← cmdCode_eq_one_iff, ite_and]
  exact exec_unlessBusy hf nofun rfl

/-- Settles O43: each read returns its register's word, and the layouts give these words. -/
theorem readRule : Obligations.ReadRule := by
  unfold Obligations.ReadRule
  intro s hf read
  have reads {i : Instr} {v w : Word} (hv : v = w) (hne : i ≠ .reset) (e : effect i s = .ok (s.returnRead v)) :
      read i w := hv ▸ exec_next hf hne e
  have field := fun (f : Half) {i : Instr} => reads (i := i) (timingWord_eq f)
  exact ⟨reads (ctrlWord_eq s) nofun rfl, reads rfl nofun rfl, reads (lineWord_eq s) nofun rfl, reads rfl nofun rfl,
    field s.sh.linePixels nofun rfl, field s.sh.syncPixels nofun rfl, field s.sh.backPorchPixels nofun rfl,
    field s.sh.videoLead nofun rfl, field s.sh.videoPixels nofun rfl, reads (polarityWord_eq s.sh) nofun rfl,
    field s.sh.vsyncStartLine nofun rfl, field s.sh.vsyncEndLine nofun rfl, field s.sh.videoStartLine nofun rfl,
    field s.sh.videoEndLine nofun rfl, reads rfl nofun rfl, reads rfl nofun rfl, fun _ => reads rfl nofun rfl⟩

/-- Settles O23: the bounds add up from the conjuncts of `WF`. -/
theorem wellFormedTimingBounds : Obligations.WellFormedTimingBounds := by
  unfold Obligations.WellFormedTimingBounds
  intro x hw
  obtain ⟨hsync, hback, hvideo, hlead, hline, hvstart, hvend, hfirst, hlast⟩ := (wf_iff x).1 hw
  have nonzero : x.vsyncStartLine ≠ 0#16 := by
    intro h
    simp [h] at hvstart
  simp only [Timing.hend, Timing.hstart]
  refine ⟨?_, ?_, ?_, hsync, ?_, ?_, hline, hlead, nonzero, hvend, hfirst, hlast⟩ <;> omega

/-- Settles O22: the drain by its guard, the load by its three outcomes. -/
theorem configurationSubEvents : Obligations.ConfigurationSubEvents := by
  unfold Obligations.ConfigurationSubEvents
  intro s hf
  refine ⟨exec_next hf nofun (effect_tickCfgDrain s), fun hwait => ?_, fun hq hd hp => ?_⟩
  · have waiting : s.cfgPhase ≠ .quiesce ∨ loadReady s = false := by
      refine hwait.imp_right fun hwork => ?_
      rw [Bool.eq_false_iff, Ne, loadReady_iff, not_and_or, Bool.not_eq_false]
      exact hwork
    exact exec_next hf nofun (effect_tickCfgLoad_waiting waiting)
  · have ready : loadReady s = true := (loadReady_iff s).2 ⟨hd, hp⟩
    have load := effect_tickCfgLoad_quiesce hq
    refine ⟨fun hw => exec_raise hf nofun (load.trans (cfgLoad_illFormed ready hw)), fun hw => ⟨_, _, _,
      exec_next hf nofun (load.trans (cfgLoad_loads ready hw)), toNat_loadTiming_savCmp hw, read_fillSentinel _ _,
      read_blankTrailing _ _ _⟩⟩

end Sys2Proof.Machine
end

section
/-! SUPPORT. The statements of spec/45_host_interface.md about the host's own program: the wait loops (R240) and the four
procedures that switch an output (R242, R243). -/

namespace Sys2Proof.Machine

section HostStep

variable {s : State} {prog : List HostOp}

theorem hostStep_rd {reg : BitVec 6} {name : HostName} (hp : s.hostProg = .rd reg name :: prog) :
    hostStep s = .read (rdOf reg) { s with hostProg := prog } name := by
  simp only [hostStep, hp]

theorem hostStep_wrBack {reg : BitVec 6} {name : HostName} {clear set : Word}
    (hp : s.hostProg = .wrBack reg name clear set :: prog) :
    hostStep s = .run (wrOf reg ((s.hostVars.get name &&& ~~~clear) ||| set)) { s with hostProg := prog } := by
  simp only [hostStep, hp]

theorem hostStep_poll {bit : Fin 32} {lvl : Bool} (hp : s.hostProg = .poll bit lvl :: prog) :
    hostStep s = .read .rdStatus
      { s with hostProg := if (statusWord s).getLsbD bit = lvl then .sleep bit lvl :: prog else prog } .s := by
  simp only [hostStep, hp]

theorem hostStep_sleep {bit : Fin 32} {lvl : Bool} (hf : s.fault = none) (hp : s.hostProg = .sleep bit lvl :: prog) :
    hostStep s =
      .done (.next (if s.hostEvt then { s with hostEvt := false, hostProg := .poll bit lvl :: prog } else s)) := by
  simp only [hostStep, hp, agentStep_ok hf]

/-- A read of the host's program returns its word and binds it (R124). -/
theorem step_of_fetch_read {i : Instr} {u : State} {name : HostName} {v : Word} (h : fetch s = .read i u name)
    (hf : u.fault = none) (hne : i ≠ .reset) (e : effect i u = .ok (u.returnRead v)) :
    step s = .next { u with rdData := v, hostVars := u.hostVars.bind name v } := by
  simp only [step, h, exec_next hf hne e]
  rfl

end HostStep

/-- Settles O46: the poll is a read of STATUS that is bound to `s`, the wait a step by the event latch. -/
theorem hostWaitLoop : Obligations.HostWaitLoop := by
  unfold Obligations.HostWaitLoop
  intro s bit lvl rest prog hf hs
  have host := fetch_host hs
  exact ⟨fun hp => step_of_fetch_read (host.trans (hostStep_poll hp)) hf nofun rfl,
    fun hp => step_of_fetch_done (host.trans (hostStep_sleep hf hp))⟩

/-! ### The output switches (R242, R243) -/

/-- What `(c & ~clear) | set` makes of a bit of `c`. -/
theorem getLsbD_writeBack (c clear set : Word) {i : ℕ} (hi : i < 32) :
    ((c &&& ~~~clear) ||| set).getLsbD i = (c.getLsbD i && !clear.getLsbD i || set.getLsbD i) := by
  simp [hi]

theorem ctrlVideoEn_writeBack (s : State) (clear set : Word) :
    ctrlVideoEn ((ctrlWord s &&& ~~~clear) ||| set) = (s.videoEn && !clear.getLsbD 0 || set.getLsbD 0) := by
  rw [ctrlVideoEn, getLsbD_writeBack _ _ _ (by decide), ctrlWord, (getLsbD_twoFlags _ _).1]

theorem ctrlSyncEn_writeBack (s : State) (clear set : Word) :
    ctrlSyncEn ((ctrlWord s &&& ~~~clear) ||| set) = (s.syncEn && !clear.getLsbD 1 || set.getLsbD 1) := by
  rw [ctrlSyncEn, getLsbD_writeBack _ _ _ (by decide), ctrlWord, (getLsbD_twoFlags _ _).2]

/-- A host step that writes CTRL from the word bound to `c`. -/
theorem step_wrBack_ctrl {u : State} {c clear set : Word} {rest : List Input} {prog : List HostOp} (hf : u.fault = none)
    (hs : u.schedule = .host :: rest) (hp : u.hostProg = .wrBack 0 .c clear set :: prog) (hc : u.hostVars.c = c) :
    step u = .next (if u.cfgPhase = .idle then
      { u with
        schedule := rest, hostProg := prog
        videoEn := ctrlVideoEn ((c &&& ~~~clear) ||| set), syncEn := ctrlSyncEn ((c &&& ~~~clear) ||| set) }
      else { u with schedule := rest, hostProg := prog }) := by
  subst hc
  have write := step_of_fetch_run ((fetch_host hs).trans (hostStep_wrBack (s := u.popTo rest) hp))
  exact write.trans (exec_unlessBusy hf nofun rfl)

/-- Settles O48: all four read CTRL into `c` and write it back; they differ in the bits that they clear and set. -/
theorem outputSwitchProcedures : Obligations.OutputSwitchProcedures := by
  unfold Obligations.OutputSwitchProcedures
  intro switches
  have writes_back {clear set : Word} {video sync : Bool → Bool}
      (hvideo : ∀ b, (b && !clear.getLsbD 0 || set.getLsbD 0) = video b)
      (hsync : ∀ b, (b && !clear.getLsbD 1 || set.getLsbD 1) = sync b) :
      switches [.rd 0 .c, .wrBack 0 .c clear set] video sync := by
    intro s rest more hf hs hp
    refine ⟨_, step_of_fetch_read ((fetch_host hs).trans (hostStep_rd hp)) hf nofun rfl, rfl, ?_⟩
    intro u later hf' hs' hp' hvars
    rw [← hvideo, ← hsync, ← ctrlVideoEn_writeBack, ← ctrlSyncEn_writeBack]
    exact step_wrBack_ctrl hf' hs' hp' (congrArg HostVars.c hvars)
  -- From here on the procedures are matched by their lists, not by what `switches` says of them.
  clear_value switches
  exact ⟨writes_back (by decide) (by decide), writes_back (by decide) (by decide), writes_back (by decide) (by decide),
    writes_back (by decide) (by decide)⟩

end Sys2Proof.Machine
end

section
/-! SUPPORT. The cells that a flip or a stream may read are written (spec/60_exceptions.md R262; spec/10_state.md R42): what each
part of a TICK, each step of the deferred render unit and each port action keeps of that, and which faults each can raise. -/

namespace Sys2Proof.Machine

/-! ### Written cells -/

/-- Every cell written in `m` is written in `m'`. -/
def Cells.Grows (m m' : Cells) : Prop := ∀ j, (m.read j).isSome → (m'.read j).isSome

theorem Cells.grows_write (m : Cells) (a : ℕ) (b : Byte) : m.Grows (m.write a b) := by
  intro j h
  rw [Cells.read_write]
  split
  · rfl
  · exact h

theorem Cells.grows_writeWord (m : Cells) (k : ℕ) (w : Word) : m.Grows (writeWord m k w) := by
  intro j h
  rw [read_writeWord]
  split
  · rfl
  · exact h

theorem Cells.grows_fill (m : Cells) (lo hi : ℕ) (f : ℕ → Byte) : m.Grows (m.fill lo hi f) := by
  intro j h
  rw [Cells.read_fill]
  split
  · rfl
  · exact h

theorem writtenTo.grow {m m' : Cells} {n : ℕ} (h : writtenTo m n) (g : m.Grows m') : writtenTo m' n :=
  fun j hj => g j (h j hj)

theorem writtenTo_zero (m : Cells) : writtenTo m 0 := fun _ hj => absurd hj (Nat.not_lt_zero _)

theorem writtenTo_fillSentinel (p : Params) (m : Cells) : writtenTo (fillSentinel p m) p.bufBytes := by
  intro j hj
  rw [fillSentinel, Cells.read_fill, if_pos ⟨Nat.zero_le j, hj⟩]
  rfl

/-- A word more is written after a word write at the first place that may be unwritten. -/
theorem writtenTo.writeWord {m : Cells} {k : ℕ} (h : writtenTo m (4 * k)) (w : Word) :
    writtenTo (writeWord m k w) (4 * (k + 1)) := by
  intro j hj
  rw [read_writeWord]
  split
  · rfl
  · exact h j (by omega)

/-- A byte more is written after a write at the first place that may be unwritten. -/
theorem writtenTo.write {m : Cells} {n : ℕ} (h : writtenTo m n) (b : Byte) : writtenTo (m.write n b) (n + 1) := by
  intro j hj
  rw [Cells.read_write]
  split
  · rfl
  · exact h j (by omega)

/-- A BEAT that raises its fault finds its cell unwritten (R172). -/
theorem beat_error_cell {s : State} {c : Fault} (e : beat s = .error c) : s.sb.read s.dma.idx.toNat = none := by
  unfold beat at e
  (repeat' split at e) <;> cases e
  assumption

/-! ### What an operation may end in -/

/-- The writes of an operation leave written every cell that will be read, or its fault is not UNWRITTEN_READ. -/
inductive EndsFilled : Except Fault State → Prop
  | ok {t : State} : t.Filled → EndsFilled (.ok t)
  | error {c : Fault} : c ≠ .unwrittenRead → EndsFilled (.error c)

namespace EndsFilled

theorem of_outcomes {x : Except Fault State} (ok : ∀ t, x = .ok t → t.Filled)
    (error : ∀ c, x = .error c → c ≠ .unwrittenRead) : EndsFilled x := by
  cases x with
  | ok t => exact .ok (ok t rfl)
  | error c => exact .error (error c rfl)

theorem bind {x : Except Fault State} {f : State → Except Fault State} (h : EndsFilled x)
    (next : ∀ t, x = .ok t → t.Filled → EndsFilled (f t)) : EndsFilled (x.bind f) := by
  cases h with
  | ok ht => exact next _ rfl ht
  | error hc => exact .error hc

end EndsFilled

namespace State.Filled

section
variable {s : State} (h : s.Filled)
include h

theorem whenEnabled {b : Bool} {body : Except Fault State} (taken : b = true → EndsFilled body) :
    EndsFilled (whenEnabled b s body) := by
  cases b
  · exact .ok h
  · exact taken rfl

theorem unlessBusy {u : State} (hu : u.Filled) : EndsFilled (unlessBusy s u) := by
  refine .ok ?_
  split
  · exact h
  · exact hu

theorem hostSide {rest : List Input} {u : State} (hu : State.HostSide rest s u) : u.Filled := by
  obtain ⟨_, _, _, _, _, rfl, -⟩ := hu
  exact { h with }

/-! ### The parts of a TICK -/

theorem drainHalt : (drainHalt s).Filled :=
  { h with workingBuffer := fun busy => h.workingBuffer (.inr (busy.resolve_left nofun)) }

/-- CFG_LOAD writes the whole working buffer, and asks for no stream. -/
theorem loadTiming : (loadTiming s).Filled :=
  have grown : s.sb.Grows (Machine.loadTiming s).sb := Cells.grows_fill s.sb _ _ _
  { workingBuffer := fun _ => writtenTo_fillSentinel s.params s.wb
    counted := writtenTo_zero _
    streamed := fun hb => (h.streamed hb).grow grown
    copied := fun hp => (h.copied hp).imp_right (·.grow grown)
    tailed := fun hp => (h.tailed hp).grow grown
    terminated := fun hp => (h.terminated hp).grow grown }

theorem cfgLoad : EndsFilled (cfgLoad s) := by
  refine .of_outcomes (fun t e => ?_) (fun c e => by rw [cfgLoad_eq_error e]; exact nofun)
  rcases cfgLoad_eq_ok e with ⟨-, rfl⟩ | ⟨-, -, rfl⟩
  · exact h
  · exact h.loadTiming

/-- A stream that SAV arms has the cells of the transfer count to read (R170). -/
theorem sav (x : Half) : EndsFilled (sav x s) := by
  refine .of_outcomes (fun t e => ?_) (fun c e => ?_)
  · rcases sav_eq_ok e with rfl | ⟨-, -, -, -, -, rfl⟩
    · exact h
    · exact { h with streamed := fun _ => h.counted }
  · rcases sav_eq_error e with ⟨rfl, -⟩ | rfl <;> exact nofun

/-- BEAT reads below the count of its stream (R172). -/
theorem beat (inv : s.Inv) : EndsFilled (beat s) := by
  by_cases hb : s.dma.busy = true
  · have written : (s.sb.read s.dma.idx.toNat).isSome := h.streamed hb _ (inv.beatIndex hb).1
    refine .of_outcomes (fun t e => ?_) (fun c e => ?_)
    · rcases beat_eq_ok e with ⟨-, rfl⟩ | ⟨-, -, rfl⟩ | ⟨-, -, _, -, rfl⟩
      · exact h
      · exact { h with }
      · exact { h with streamed := fun _ => h.streamed hb }
    · exact absurd (beat_error_cell e) (Option.isSome_iff_ne_none.1 written)
  · rw [beat_no_stream (Bool.eq_false_iff.2 hb)]
    exact .ok h

/-- EAV of a running generator requests deferred work: the working buffer has been written (R238). -/
theorem eavAt (hrun : s.run = true) (x : Half) : EndsFilled (eavAt x s) := by
  refine .of_outcomes (fun t e => ?_) (fun c e => ?_)
  · obtain ⟨a, d, v, b, k, rfl⟩ := eavAt_frame e
    exact { h with workingBuffer := fun _ => h.workingBuffer (.inl hrun) }
  · rcases eav_eq_error (eavAt_eq_error e) with rfl | rfl | rfl <;> exact nofun

theorem advance (x : Half) : (advance x s).Filled := by
  unfold Machine.advance
  split <;> exact { h with }

theorem latchH : s.latchH.Filled := { h with }

theorem generate (r : s.RunsAt s.hcount) : EndsFilled (generate s) :=
  (h.latchH.sav _).bind fun _ e1 h1 =>
    have r1 := r.latchH.sav e1
    (h1.beat r1.inv).bind fun _ e2 h2 =>
      (h2.eavAt (r1.beat e2).run _).bind fun _ _ h3 => .ok (h3.advance _)

theorem tickEvents (inv : s.Inv) : EndsFilled (tickEvents s) := by
  unfold Machine.tickEvents
  split
  · exact .ok h.drainHalt
  · split
    · exact h.cfgLoad
    · split
      · exact h.generate (inv.runsAt ‹_›)
      · exact .ok h

/-! ### The deferred render unit -/

/-- SB with more cells written. -/
theorem growScan {sb : Cells} (g : s.sb.Grows sb) : { s with sb := sb }.Filled :=
  { h with
    counted := h.counted.grow g
    streamed := fun hb => (h.streamed hb).grow g
    copied := fun hp => (h.copied hp).imp_right (·.grow g)
    tailed := fun hp => (h.tailed hp).grow g
    terminated := fun hp => (h.terminated hp).grow g }

/-- The unit, at work, moves on to a phase outside the flip. -/
theorem toPhase {p : DruPhase} (hs : s.dru.phase ≠ .idle) (hp : p ≠ .copy ∧ p ≠ .tail ∧ p ≠ .term) :
    (s.toPhase p).Filled :=
  { h with
    workingBuffer := fun _ => h.workingBuffer (.inr (.inr hs))
    copied := fun hc => absurd hc hp.1
    tailed := fun ht => absurd ht hp.2.1
    terminated := fun ht => absurd ht hp.2.2 }

/-- DISPATCH begins a flip with nothing to have copied, or none (R190). -/
theorem dispatch (hd : s.deferPending = true) : (dispatch s).Filled :=
  have entered : (Machine.dispatch s).dru.phase ≠ .tail ∧ (Machine.dispatch s).dru.phase ≠ .term := by
    unfold Machine.dispatch
    dsimp only
    split <;> simp
  { h with
    workingBuffer := fun _ => h.workingBuffer (.inr (.inl hd))
    copied := fun _ => ⟨Nat.zero_le _, writtenTo_zero _⟩
    tailed := fun ht => absurd ht entered.1
    terminated := fun ht => absurd ht entered.2 }

/-- COPY reads the working buffer below the latched length, and its cells are copied one word further, or all (R192). -/
theorem copyStep (inv : s.Inv) (hp : s.dru.phase = .copy) : EndsFilled (copyStep s) := by
  obtain ⟨hi, copied⟩ := h.copied hp
  have written := h.workingBuffer (.inr (.inr (by simp [hp])))
  by_cases more : s.dru.copyIdx.toNat < copyWords s.dru
  · have hlen : 4 * copyWords s.dru < s.params.bufBytes := by
      have := inv.copyLength
      unfold copyWords
      omega
    obtain ⟨w, hw⟩ := readWord_written fun j (hj : j / 4 = s.dru.copyIdx.toNat) =>
      Option.isSome_iff_ne_none.1 (written j (by omega))
    have next : (s.dru.copyIdx + 1).toNat = s.dru.copyIdx.toNat + 1 := by
      have := bufBytes_le s.params
      exact toNat_add_one (by omega)
    rw [copyStep_moves more hw]
    exact .ok { h.growScan (Cells.grows_writeWord s.sb s.dru.copyIdx.toNat w) with
      copied := fun _ => next ▸ ⟨more, copied.writeWord w⟩ }
  · have all : s.dru.copyIdx.toNat = copyWords s.dru := le_antisymm hi (Nat.not_lt.1 more)
    rw [copyStep_ends (Nat.not_lt.1 more)]
    exact .ok { h with
      workingBuffer := fun _ => written
      copied := nofun
      tailed := fun _ => all ▸ copied
      terminated := nofun }

/-- TAIL reads the working buffer below the latched length, up to which all is then copied (R194). -/
theorem tailStep (inv : s.Inv) (hp : s.dru.phase = .tail) : EndsFilled (tailStep s) := by
  have written := h.workingBuffer (.inr (.inr (by simp [hp])))
  have source : ∀ j, j < s.dru.copyLen.toNat → (s.wb.read j).isSome := fun j hj => written j (hj.trans inv.copyLength)
  obtain ⟨t, e⟩ := tailStep_written fun j _ hj => Option.isSome_iff_ne_none.1 (source j hj)
  obtain ⟨sb, rfl, cells⟩ := tailStep_copies e
  have grown : s.sb.Grows sb := by
    intro j hj
    rw [cells j]
    split
    · exact source j (And.right ‹_›)
    · exact hj
  have copied : writtenTo sb s.dru.copyLen.toNat := by
    intro j hj
    rw [cells j]
    split
    · exact source j hj
    · exact h.tailed hp j (by omega)
  rw [e]
  exact .ok { h.growScan grown with
    workingBuffer := fun _ => written
    copied := nofun
    tailed := nofun
    terminated := fun _ => copied }

/-- TERM writes the last cell of the transfer count (R196). -/
theorem termStep (hp : s.dru.phase = .term) : (termStep s).Filled :=
  { (h.growScan (Cells.grows_write s.sb s.dru.copyLen.toNat 0#8)).toPhase (p := .hook) (by simp [hp]) (by decide) with
    counted := by
      rw [toNat_termStep_dmaCount]
      exact (h.terminated hp).write 0#8 }

theorem hookAckStep (hp : s.dru.phase = .hookWait) : (hookAckStep s).Filled := by
  unfold Machine.hookAckStep
  split
  · exact { h.toPhase (p := .sched) (by simp [hp]) (by decide) with }
  · exact { h.toPhase (p := .idle) (by simp [hp]) (by decide) with }

theorem schedStep (hp : s.dru.phase = .sched) : EndsFilled (schedStep s) := by
  have atWork : s.dru.phase ≠ .idle := by simp [hp]
  unfold Machine.schedStep
  split
  · split
    · exact .error nofun
    · exact .ok { h.toPhase (p := .renderWait) atWork (by decide) with }
  · split
    · cases e : readNode s s.currentBand.next with
      | ok node => exact .ok { h with }
      | error c => exact .error (by rcases readNode_eq_error e with rfl | rfl <;> exact nofun)
    · exact .ok (h.toPhase atWork (by decide))

/-! ### The rasterizer port -/

/-- WB with more cells written. -/
theorem growWorking {wb : Cells} (g : s.wb.Grows wb) : { s with wb := wb }.Filled :=
  { h with workingBuffer := fun busy => (h.workingBuffer busy).grow g }

theorem wb8Step (index : Half) (data : Byte) : EndsFilled (wb8Step index data s) := by
  unfold Machine.wb8Step
  split
  · exact .error nofun
  · exact .ok (h.growWorking (Cells.grows_write _ _ _))

theorem wb32Step (windex : BitVec 14) (data : Word) : EndsFilled (wb32Step windex data s) := by
  unfold Machine.wb32Step
  split
  · exact .error nofun
  · exact .ok (h.growWorking (Cells.grows_writeWord _ _ _))

theorem respStep (hp : s.dru.phase = .renderWait) (d : Word) : EndsFilled (respStep d s) := by
  unfold Machine.respStep
  split
  · exact .error nofun
  · exact .ok { h.toPhase (p := .idle) (by simp [hp]) (by decide) with }

end

/-! ### Every operation, every step -/

theorem afterReset (s : State) : s.afterReset.Filled where
  workingBuffer := by simp [State.afterReset, State.reset]
  counted := writtenTo_zero _
  streamed := nofun
  copied := nofun
  tailed := nofun
  terminated := nofun

theorem raise {s : State} (h : s.Filled) (c : Fault) : (s.raise c).Filled := { h with }

theorem effect {s : State} (h : s.Filled) (inv : s.Inv) (i : Instr) : EndsFilled (effect i s) := by
  have shadow (x : Timing) : EndsFilled (Machine.unlessBusy s { s with sh := x }) := h.unlessBusy { h with }
  cases i with
  | reset => exact .ok (afterReset s)
  | tick =>
    have begun : s.beginTick.Filled := { h with }
    exact (begun.tickEvents inv.beginTick).bind fun _ _ ht => .ok { ht with }
  | tickCfgDrain => exact h.whenEnabled fun _ => .ok h.drainHalt
  | tickCfgLoad => exact h.whenEnabled fun _ => h.cfgLoad
  | tickSav => exact h.whenEnabled fun _ => h.latchH.sav _
  | tickBeat => exact h.whenEnabled fun hrun => h.latchH.beat (inv.runsAt hrun).latchH.inv
  | tickEav => exact h.whenEnabled fun hrun => h.latchH.eavAt hrun _
  | tickAdvance => exact h.whenEnabled fun _ => .ok (h.latchH.advance _)
  | druDispatch => exact h.whenEnabled fun hb => .ok (h.dispatch ((dispatchEnabled_iff s).1 hb).2)
  | druCopy => exact h.whenEnabled fun hb => h.copyStep inv ((copyEnabled_iff s).1 hb).1
  | druTail => exact h.whenEnabled fun hb => h.tailStep inv ((tailEnabled_iff s).1 hb).1
  | druTerm => exact h.whenEnabled fun hb => .ok (h.termStep ((termEnabled_iff s).1 hb).1)
  | druHookReq =>
    refine h.whenEnabled fun hb => .ok ?_
    have atWork : s.dru.phase ≠ .idle := by simp [(hookReqEnabled_iff s).1 hb]
    exact { h.toPhase (p := .hookWait) atWork (by decide) with }
  | druSched => exact h.whenEnabled fun hb => h.schedStep ((schedEnabled_iff s).1 hb)
  | rastWb8 index data => exact h.whenEnabled fun _ => h.wb8Step index data
  | rastWb32 windex data => exact h.whenEnabled fun _ => h.wb32Step windex data
  | rastResp d => exact h.whenEnabled fun hb => h.respStep ((wbGrant_iff s).1 hb) d
  | hookAck => exact h.whenEnabled fun hb => .ok (h.hookAckStep (inv.hook.1 hb))
  | wrCtrl => exact h.unlessBusy { h with }
  | wrCmd => exact h.unlessBusy (by split; exacts [{ h with }, h])
  | wrTLinePixels | wrTSyncPixels | wrTBackPorchPixels | wrTVideoLead | wrTVideoPixels | wrTPolarity
  | wrTVsyncStartLine | wrTVsyncEndLine | wrTVideoStartLine | wrTVideoEndLine | wrTClockConfig => exact shadow _
  | _ => exact .ok { h with }

/-- An operation keeps written what will be read, and reads no unwritten cell. -/
theorem exec {i : Instr} {s t : State} (h : s.Filled) (inv : s.Inv) (e : exec i s = .next t) :
    t.Filled ∧ t.fault ≠ some .unwrittenRead := by
  rcases exec_eq_next e with ⟨-, rfl⟩ | ⟨hne, hf, he | ⟨c, he, rfl⟩⟩
  · exact ⟨afterReset s, nofun⟩
  · have unfaulted : t.fault = none := (effect_sameOutside hne he).1.trans hf
    have ends := h.effect inv i
    rw [he] at ends
    cases ends with
    | ok ht => exact ⟨ht, by rw [unfaulted]; exact nofun⟩
  · have ends := h.effect inv i
    rw [he] at ends
    cases ends with
    | error hc => exact ⟨h.raise c, fun hu => hc (Option.some.inj hu)⟩

end State.Filled

/-- Settles O51: a step is an operation, or REG_ACCESS, or nothing, in a state that differs on the host side only. -/
theorem noStepReadsAnUnwrittenCell : Obligations.NoStepReadsAnUnwrittenCell := by
  unfold Obligations.NoStepReadsAnUnwrittenCell
  intro s t inv filled e
  rcases step_cases e with ⟨i, u, v, vars, hu, hv, rfl⟩ | ⟨hf, ht⟩ | ⟨-, u, hu, rfl⟩
  · obtain ⟨hfilled, hfault⟩ := (filled.hostSide hu).exec (inv.hostSide hu) hv
    exact ⟨{ hfilled with }, hfault⟩
  · exact ⟨filled.hostSide ht, by rw [ht.fault, hf]; exact nofun⟩
  · exact ⟨(filled.hostSide hu).raise _, nofun⟩

end Sys2Proof.Machine
end

section
/-! SUPPORT. The statements of spec/60_exceptions.md about every operation (R260, R290): what a fault writes, that a faulted machine
takes RESET alone, and that every operation answers a next state. First, which entry of the schedule can give RESET. -/

namespace Sys2Proof.Machine

/-! ### What an operation answers -/

theorem afterReset_fault (s : State) : s.afterReset.fault = none := rfl

/-- Settles O11: RESET and an operation's writes leave no fault, and a fault raised is all that is written. -/
theorem raisingWritesOnlyTheFault : Obligations.RaisingWritesOnlyTheFault := by
  unfold Obligations.RaisingWritesOnlyTheFault
  intro i s t c e ht
  rcases exec_eq_next e with ⟨-, rfl⟩ | ⟨hne, hf, he | ⟨c', -, rfl⟩⟩
  · exact absurd ((afterReset_fault s).symm.trans ht) nofun
  · obtain ⟨same, -⟩ := effect_sameOutside hne he
    exact absurd ((same.trans hf).symm.trans ht) nofun
  · rw [← ht]
    rfl

/-- Settles O13: RESET, the writes of any other operation, and its fault keep what stands outside the block. -/
theorem everyOperationAnswersANextState : Obligations.EveryOperationAnswersANextState := by
  unfold Obligations.EveryOperationAnswersANextState
  intro i s hf
  by_cases hi : i = .reset
  · subst hi
    exact ⟨_, exec_reset s, rfl, rfl, rfl, rfl, rfl, rfl⟩
  · cases he : effect i s with
    | ok t =>
      obtain ⟨-, outside⟩ := effect_sameOutside hi he
      exact ⟨t, exec_next hf hi he, outside⟩
    | error c => exact ⟨_, exec_raise hf hi he, rfl, rfl, rfl, rfl, rfl, rfl⟩

/-! ### Which operation a step runs -/

/-- The operation that comes next, if any. -/
def Action.operation : Action → Option Instr
  | .run i _ => some i
  | .read i _ _ => some i
  | .done _ => none

theorem wrOf_ne_reset (reg : BitVec 6) (v : Word) : wrOf reg v ≠ .reset := by
  unfold wrOf
  split <;> exact nofun

theorem rdOf_ne_reset (reg : BitVec 6) : rdOf reg ≠ .reset := by
  unfold rdOf
  split <;> exact nofun

theorem druStepEnabled_ne_reset (s : State) : druStepEnabled s ≠ some .reset := by
  unfold druStepEnabled
  (repeat' split) <;> exact nofun

theorem druAction_operation (s : State) : (druAction s).operation ≠ some .reset := by
  unfold druAction
  split
  · rename_i i hi
    exact fun h => druStepEnabled_ne_reset s (hi.trans h)
  · exact nofun

theorem takeTurn_operation (s : State) : (takeTurn s).operation ≠ some .reset := by
  by_cases clock : s.druTurn = false ∨ druStepEnabled s = none
  · rw [takeTurn_clock clock]
    exact nofun
  · simp only [not_or, Bool.not_eq_false, ← ne_eq, Option.ne_none_iff_exists'] at clock
    obtain ⟨hturn, i, hi⟩ := clock
    rw [takeTurn_dru hturn hi]
    exact fun h => druStepEnabled_ne_reset s (hi.trans h)

theorem busAccess_operation (s done : State) (write : Bool) (width : AccessWidth) (addr v : Word) :
    (busAccess s done write width addr v).operation ≠ some .reset := by
  unfold busAccess
  split
  · exact nofun
  · split
    · exact nofun
    · cases write
      · exact fun h => rdOf_ne_reset _ (Option.some.inj h)
      · exact fun h => wrOf_ne_reset _ _ (Option.some.inj h)

/-- The host's own program makes register accesses and memory writes only (R6). -/
theorem hostStep_operation (s : State) : (hostStep s).operation ≠ some .reset := by
  unfold hostStep
  split
  · exact nofun
  · exact fun h => wrOf_ne_reset _ _ (Option.some.inj h)
  · exact fun h => rdOf_ne_reset _ (Option.some.inj h)
  · exact fun h => wrOf_ne_reset _ _ (Option.some.inj h)
  · exact busAccess_operation _ _ _ _ _ _
  · split <;> exact nofun
  · exact nofun
  · exact nofun

/-- Only its own descriptor names RESET (R121). -/
theorem opAction_operation_reset {s : State} {op : BitVec 16} {data : BitVec 48}
    (h : (opAction s op data).operation = some .reset) : op = 0x5000#16 ∧ data = 0#48 := by
  unfold opAction at h
  split at h
  · rename_i i hd
    cases Option.some.inj h
    obtain ⟨-, words⟩ := encodedBy_of_decode hd
    obtain ⟨hop, hdata⟩ := Prod.mk.inj words
    exact ⟨hop.symm, hdata.symm⟩
  · cases h
  · cases h

/-- RESET comes next only where the schedule begins with its descriptor. -/
theorem fetch_operation_reset {s : State} (h : (fetch s).operation = some .reset) :
    ∃ rest, s.schedule = .op 0x5000#16 0#48 :: rest := by
  unfold fetch at h
  split at h
  · exact absurd h (takeTurn_operation s)
  · rename_i op data rest hs
    obtain ⟨rfl, rfl⟩ := opAction_operation_reset h
    exact ⟨rest, hs⟩
  · exact absurd h (druAction_operation _)
  · exact absurd h (hostStep_operation _)
  · cases h

/-! ### The faulted machine (R260) -/

/-- In a faulted state an operation that answers a next state is RESET. -/
theorem reset_of_exec_stopped {i : Instr} {s t : State} {c : Fault} (hf : s.fault = some c) (e : exec i s = .next t) :
    i = .reset ∧ t.fault = none := by
  rcases exec_eq_next e with ⟨rfl, rfl⟩ | ⟨-, unfaulted, -⟩
  · exact ⟨rfl, afterReset_fault s⟩
  · exact absurd (unfaulted.symm.trans hf) nofun

/-- In a faulted state a step that answers a next state runs RESET. -/
theorem step_stopped {s t : State} {c : Fault} (hf : s.fault = some c) (e : step s = .next t) :
    (fetch s).operation = some .reset ∧ t.fault = none := by
  have within := fetch_within s
  unfold step at e
  split at e
  · rename_i i u hfetch
    rw [hfetch] at within ⊢
    obtain ⟨rfl, ht⟩ := reset_of_exec_stopped (within.fault.trans hf) e
    exact ⟨rfl, ht⟩
  · rename_i i u name hfetch
    rw [hfetch] at within ⊢
    obtain ⟨v, hv, rfl⟩ := bindResult_eq_next e
    obtain ⟨rfl, ht⟩ := reset_of_exec_stopped (within.fault.trans hf) hv
    exact ⟨rfl, ht⟩
  · rename_i o hfetch
    rw [hfetch] at within
    obtain ⟨unfaulted, -⟩ := within t e
    exact absurd (unfaulted.symm.trans hf) nofun

/-- Settles O12: the operations stop with the fault, and the one step left is RESET's, which its descriptor alone gives. -/
theorem faultedMachineTakesNoStep : Obligations.FaultedMachineTakesNoStep := by
  unfold Obligations.FaultedMachineTakesNoStep
  intro s c hf
  refine ⟨fun i hi => exec_stopped hi hf, fun t e => ?_⟩
  obtain ⟨runsReset, ht⟩ := step_stopped hf e
  exact ⟨ht, fetch_operation_reset runsReset⟩

end Sys2Proof.Machine
end

section
/-! SUPPORT. The statements of spec/70_reset_and_hazards.md (R290, R291): the reset state, the invariants it meets, and RESET from
any state, which leaves no handshake open and no deferred work. -/

namespace Sys2Proof.Machine

/-! ### The reset state (R291) -/

/-- Settles O14: the elements as `State.reset` lists them, and the pins, STATUS and LINE that those values give. -/
theorem resetStateValues : Obligations.ResetStateValues := by
  unfold Obligations.ResetStateValues
  intro s
  have requestNothing : rastReqPin s = none := rfl
  have statusZero : statusWord s = 0#32 := by decide
  have lineZero : lineWord s = 0#32 := by decide
  have unwritten : ∀ j, Cells.read [] j = none := fun _ => rfl
  exact ⟨rfl, rfl, rfl, rfl, rfl, rfl, rfl, rfl, rfl, rfl, rfl, rfl, rfl, rfl, rfl, rfl, rfl, rfl, rfl, rfl, rfl, rfl, rfl, rfl,
    rfl, rfl, unwritten, unwritten, rfl, rfl, rfl, rfl, requestNothing, rfl, statusZero, lineZero⟩

/-- RESET sets up every part of the invariant itself; of the state before it needs only host memory, which it keeps (R290). -/
theorem afterReset_inv {s : State} (h : Memory.wf s.hostMem) : s.afterReset.Inv where
  hostMemory := h
  workingBuffer := ⟨.nil, nofun⟩
  scanBuffer := ⟨.nil, nofun⟩
  timing := nofun
  streaming := nofun
  quiesced := nofun
  displayed := nofun
  shape := bufBytes_pos _
  copyLength := bufBytes_pos _
  transferCount := Nat.zero_le _
  beatIndex := nofun
  hook := ⟨nofun, nofun⟩
  scheduling := nofun

theorem afterReset_reset : State.reset.afterReset = State.reset := rfl

/-- Settles O49: the reset state is what RESET leaves of it, with nothing running, nothing deferred and no stream. -/
theorem resetMeetsTheInvariants : Obligations.ResetMeetsTheInvariants := by
  unfold Obligations.ResetMeetsTheInvariants
  rw [← afterReset_reset]
  exact ⟨afterReset_inv Memory.wf_reset, .afterReset _, .of_no_stream rfl⟩

/-! ### RESET from any state (R290) -/

/-- HOOK.ACK is ignored while the hook is not requested (R200). -/
theorem exec_hookAck_unrequested {s : State} (hf : s.fault = none) (hr : s.hookReq = false) : exec .hookAck s = .next s :=
  exec_next hf nofun (by rw [effect, hr, whenEnabled_false])

/-- An idle unit with nothing deferred has no step (R189). -/
theorem druStepEnabled_idle_undeferred {s : State} (hp : s.dru.phase = .idle) (hd : s.deferPending = false) :
    druStepEnabled s = none := by
  rw [druStepEnabled_idle hp, hd, if_neg Bool.false_ne_true]

/-- Settles O15: RESET leaves the unit idle, with no grant, no hook request and nothing deferred. -/
theorem resetStep : Obligations.ResetStep := by
  unfold Obligations.ResetStep
  intro s
  have unfaulted := afterReset_fault s
  have ungranted : s.afterReset.dru.phase ≠ .renderWait := nofun
  refine ⟨s.afterReset, exec_reset s, rfl, fun index data => ?_, fun windex data => ?_, fun d => ?_, ?_, fun rest => ?_⟩
  · exact exec_ungranted unfaulted nofun rfl ungranted
  · exact exec_ungranted unfaulted nofun rfl ungranted
  · exact exec_ungranted unfaulted nofun rfl ungranted
  · exact exec_hookAck_unrequested unfaulted rfl
  · exact step_dru_none unfaulted rfl (druStepEnabled_idle_undeferred rfl rfl)

end Sys2Proof.Machine
end
